-- ==== Sys2Proof/Word.lean ====
section
/-! DEFINITION. The word types of the block and the shape of a memory. -/

namespace Sys2Proof

/-- One byte: a byte lane (R12), a non-volatile byte (R54), a graphics-ROM byte (R55). -/
abbrev Byte := BitVec 8

/-- The 16-bit bus word (R57), also a video memory word (R80) and a palette entry (R81). -/
abbrev Word := BitVec 16

/-- The 32-bit bus address (R66). -/
abbrev Addr := BitVec 32

/-- The 15 significant colour bits that the row buffer holds (R37). -/
abbrev Pixel := BitVec 15

/-- The 24-bit host colour (R82). -/
abbrev Color := BitVec 24

/-- A memory of cells of `w` bits.  `cells` lists, with strictly rising indexes, the cells whose content is
known: those written, or supplied by the host.  Every other cell holds the free value that the power-on
numbered `base` drew for it (R47; assumption log 2).  For `w = 8` the cells are `Host.Cell`. -/
structure Memory (w : Nat) where
  base : Nat
  cells : List (Nat × BitVec w)
  deriving DecidableEq, Repr

end Sys2Proof
end

