-- ==== Sys2Proof/Config.lean ====
section
/-! DEFINITION. The configuration record `CFG` of rule R6, and the free values: what the spec leaves
unspecified, each an opaque constant without a body. -/

namespace Sys2Proof

/-- An inclusive address range `X_LO..X_HI` (R6). -/
structure Range where
  lo : Nat
  hi : Nat
  deriving DecidableEq, Repr

/-- A per-frame cycle budget: the rational `num / den` (R6; assumption log 17). -/
structure Budget where
  num : Nat
  den : Nat
  deriving DecidableEq, Repr

/-- `HostColor` as plain data (R151; assumption log 12): the default of REFCFG, or a table with one host
colour for each of the 2^15 values of the colour bits.  Every function of the colour bits has a table. -/
inductive ColorMap where
  | rgb555
  | table (entries : List Color)
  deriving DecidableEq, Repr

/-- The eleven specific handlers (R71), in the order of the stage 1 decode. -/
inductive Handler where
  | vram | nvram | nvwe | input | pal | prot | ctrl | grom | sndst | sndlatch | wdog
  deriving DecidableEq, Repr

/-- The two processors that consume run grants (R11): `p0` the primary, `p1` the secondary. -/
inductive Proc where
  | p0 | p1
  deriving DecidableEq, Repr

/-- The parameters of rule R6.  Those the table fixes to one value (`AW`, `DW`, `RING`, `PIX_MASK`) are the
constants below the record. -/
structure Cfg where
  addrShift : Nat
  vramRange : Range
  nvramRange : Range
  nvweRange : Range
  inputRange : Range
  palRange : Range
  protRange : Range
  ctrlRange : Range
  gromRange : Range
  sndstRange : Range
  sndlatchRange : Range
  wdogRange : Range
  /-- `PROT_TABLE`; its length is `PROT_LEN`. -/
  protTable : List Byte
  protRdShift : Nat
  protKeyLo : Nat
  protKeyW : Nat
  vramWords : Nat
  rowBaseMask : Nat
  colScaleLog2 : Nat
  palIndexMask : Nat
  hostColor : ColorMap
  nvramBytes : Nat
  gromBytes : Nat
  gromHighOffset : Nat
  gromLarge : Bool
  ctrlVbankBit : Nat
  ctrlGbankBit : Nat
  sndackPolls : Nat
  sndReady : Word
  sndNotready : Word
  sliceCount : Nat
  budget0 : Budget
  budget1 : Budget
  overshootMax0 : Nat
  overshootMax1 : Nat
  frameSamples : Nat
  screenW : Nat
  screenH : Nat
  deriving DecidableEq, Repr

namespace Config

/-! ### Parameters that rule R6 fixes -/

/-- `AW`, the bus address width. -/
def addrWidth : Nat := 32
/-- `DW`, the bus data width. -/
def dataWidth : Nat := 16
/-- `RING`, words per video row. -/
def ring : Nat := 512
/-- `PIX_MASK`, the significant colour bits of a video word. -/
def pixMask : Nat := 0x7FFF

/-! ### Free values (R46, R47; assumption log 2, 3, 14, 15)

The first argument is the number of the draw, the second, where there is one, the cell.  Nothing is known of
any of them. -/

/-- Power-on content of a `VRAM` word. -/
opaque drawVram : Nat → Nat → Word
/-- Power-on content of a `PALRAM` entry. -/
opaque drawPalram : Nat → Nat → Word
/-- Power-on content of a `PALCACHE` entry. -/
opaque drawPalcache : Nat → Nat → Color
/-- Content of an `NVRAM` byte that no host image gives. -/
opaque drawNvram : Nat → Nat → Byte
/-- Content of a `GROM` byte that the host's image does not list. -/
opaque drawGrom : Nat → Nat → Byte
/-- Power-on content of a `PIXBUF` cell. -/
opaque drawPixbuf : Nat → Nat → Pixel
/-- Power-on content of a `HOSTSURF` cell. -/
opaque drawHostsurf : Nat → Nat → Color
/-- `PALDIRTY` after power-on. -/
opaque drawPaldirty : Nat → Bool
/-- `SURFACE_BOUND` after power-on. -/
opaque drawSurfaceBound : Nat → Bool
/-- `PALLATCH` after power-on and after a soft reset. -/
opaque drawPallatch : Nat → Word
/-- `IN_RAW[p]` after power-on. -/
opaque drawInRaw : Nat → Nat → Word
/-- `DIP_RAW[p]` after power-on. -/
opaque drawDipRaw : Nat → Nat → Byte
/-- The display generator's descriptor lines before it has driven them. -/
opaque drawDesc : Nat → BitVec 64
/-- The processors' count of executed cycles before they have given one. -/
opaque drawRan : Nat → Nat
/-- Whether the processors report a return before they have reported anything. -/
opaque drawReturned : Nat → Bool
/-- The table byte at a cursor outside `PROT_TABLE`; no run reaches such a cursor (assumption log 25). -/
opaque drawTable : Nat → Byte

end Config

end Sys2Proof
end

