-- ==== Sys2Proof/Machine/Memory.lean ====
section
/-! DEFINITION. The operations on one memory: read, write, fill, and its canonical form. -/

namespace Sys2Proof.Machine

/-- The listed value of cell `i`, if the list has one. -/
def lookupCell {w : Nat} : List (Nat × BitVec w) → Nat → Option (BitVec w)
  | [], _ => none
  | (j, v) :: rest, i => if j = i then some v else lookupCell rest i

/-- `cells` with cell `i` listed as `v`, at its place in the order of the indexes. -/
def setCell {w : Nat} : List (Nat × BitVec w) → Nat → BitVec w → List (Nat × BitVec w)
  | [], i, v => [(i, v)]
  | (j, u) :: rest, i, v =>
    if i < j then (i, v) :: (j, u) :: rest
    else if i = j then (i, v) :: rest
    else (j, u) :: setCell rest i v

/-- The indexes are strictly rising, all at least `lo` and below `size`. -/
def risingCells {w : Nat} (size : Nat) : Nat → List (Nat × BitVec w) → Bool
  | _, [] => true
  | lo, (j, _) :: rest => decide (lo ≤ j) && decide (j < size) && risingCells size (j + 1) rest

/-- Read cell `i`: its listed value, else the free draw of the memory's power-on (R47). -/
def readCell {w : Nat} (drawn : Nat → Nat → BitVec w) (m : Memory w) (i : Nat) : BitVec w :=
  (lookupCell m.cells i).getD (drawn m.base i)

/-- Write `v` to cell `i`. -/
def writeCell {w : Nat} (m : Memory w) (i : Nat) (v : BitVec w) : Memory w :=
  { m with cells := setCell m.cells i v }

/-- Write every cell of `0..size-1` at once: cell `i` becomes `f i`. -/
def fillCells {w : Nat} (m : Memory w) (size : Nat) (f : Nat → BitVec w) : Memory w :=
  { m with cells := (List.range size).map fun i => (i, f i) }

/-- The writes of a list, first to last. -/
def writeCells {w : Nat} (m : Memory w) : List (Nat × BitVec w) → Memory w
  | [] => m
  | (i, v) :: rest => writeCells (writeCell m i v) rest

/-- The indexes are strictly rising, all at least `lo`. -/
def risingFrom {w : Nat} : Nat → List (Nat × BitVec w) → Bool
  | _, [] => true
  | lo, (j, _) :: rest => decide (lo ≤ j) && risingFrom (j + 1) rest

end Sys2Proof.Machine

namespace Sys2Proof

/-- The canonical form of a memory of `size` cells: the listed indexes are strictly rising and exist.
An unlisted cell reads as a free value, so no listed value can be known to equal it (assumption log 2). -/
def Memory.wf {w : Nat} (size : Nat) (m : Memory w) : Bool :=
  Machine.risingCells size 0 m.cells

/-- Every listed cell exists in a memory of `size` cells. -/
def Memory.fits {w : Nat} (size : Nat) (m : Memory w) : Bool := m.cells.all fun cell => decide (cell.1 < size)

/-- The listed cells stand in order, none twice. -/
def Memory.ordered {w : Nat} (m : Memory w) : Bool := Machine.risingFrom 0 m.cells

end Sys2Proof
end

