-- ==== Sys2Proof/Machine/Platform.lean ====
section
/-! DEFINITION. What a configuration means: the ranges and directions of the handlers, stage 1 of the decode,
the offsets inside a window, the well-formed configurations of rule R7, the colour function, the cycle
targets, and the spec's two test configurations. -/

namespace Sys2Proof

/-! ### Ranges, directions, stage 1 (R71, R72) -/

/-- `X_LO..X_HI` of a handler. -/
def Cfg.range (c : Cfg) : Handler → Range
  | .vram => c.vramRange
  | .nvram => c.nvramRange
  | .nvwe => c.nvweRange
  | .input => c.inputRange
  | .pal => c.palRange
  | .prot => c.protRange
  | .ctrl => c.ctrlRange
  | .grom => c.gromRange
  | .sndst => c.sndstRange
  | .sndlatch => c.sndlatchRange
  | .wdog => c.wdogRange

/-- The handlers that answer reads (R72). -/
def Handler.answersReads : Handler → Bool
  | .vram | .nvram | .pal | .prot | .input | .grom | .sndst => true
  | .nvwe | .ctrl | .sndlatch | .wdog => false

/-- The handlers that answer writes (R72). -/
def Handler.answersWrites : Handler → Bool
  | .vram | .nvram | .pal | .prot | .nvwe | .ctrl | .sndlatch | .wdog => true
  | .input | .grom | .sndst => false

/-- `dir(X) admits rw` (R72); `rw` is true for a write. -/
def Handler.admitsDir (h : Handler) (rw : Bool) : Bool :=
  if rw then h.answersWrites else h.answersReads

/-- `claims(X, rw)` of R71. -/
def Cfg.claims (c : Cfg) (h : Handler) (addr : Nat) (rw : Bool) : Bool :=
  decide ((c.range h).lo ≤ addr) && decide (addr ≤ (c.range h).hi) && h.admitsDir rw

/-- The eleven specific handlers in the order of R71. -/
def handlersInOrder : List Handler :=
  [.vram, .nvram, .nvwe, .input, .pal, .prot, .ctrl, .grom, .sndst, .sndlatch, .wdog]

/-- Stage 1: the handler that claims the transaction, `none` for the diagnostic default (R71). -/
def Cfg.select (c : Cfg) (addr : Nat) (rw : Bool) : Option Handler :=
  handlersInOrder.find? fun h => c.claims h addr rw

/-- The `HSEL` code of a selected handler (R71). -/
def selectCode : Option Handler → BitVec 4
  | none => 0
  | some .vram => 1
  | some .nvram => 2
  | some .nvwe => 3
  | some .input => 4
  | some .pal => 5
  | some .prot => 6
  | some .ctrl => 7
  | some .grom => 8
  | some .sndst => 9
  | some .sndlatch => 10
  | some .wdog => 11

/-- The word offset `k` of an address in a handler's range (R51). -/
def Cfg.wordOffset (c : Cfg) (h : Handler) (addr : Nat) : Nat :=
  (addr - (c.range h).lo) >>> c.addrShift

/-- The address of word offset `k` of a handler's range, low bits clear. -/
def Cfg.wordAddr (c : Cfg) (h : Handler) (k : Nat) : Nat :=
  (c.range h).lo + (k <<< c.addrShift)

/-- The last word offset of a handler's range. -/
def Cfg.lastOffset (c : Cfg) (h : Handler) : Nat :=
  ((c.range h).hi - (c.range h).lo) >>> c.addrShift

/-- The palette index of an address: a mask of the address, not an offset (R74, R110). -/
def Cfg.paletteIndex (c : Cfg) (addr : Nat) : Nat :=
  (addr >>> c.addrShift) &&& c.palIndexMask

/-- `PAL_ENTRIES` (R6). -/
def Cfg.palEntries (c : Cfg) : Nat := c.palIndexMask + 1

/-- The word offset of the palette window at which entry `i` is reached first. -/
def Cfg.paletteOffset (c : Cfg) (i : Nat) : Nat :=
  (i + c.palEntries - ((c.palRange.lo >>> c.addrShift) % c.palEntries)) % c.palEntries

/-! ### Well-formed configurations (R6, R7) -/

/-- A range is a range of bus addresses that begins and ends on a word boundary (R6, R7 e). -/
def Cfg.rangeWf (c : Cfg) (h : Handler) : Bool :=
  decide ((c.range h).lo ≤ (c.range h).hi) && decide ((c.range h).hi < 2 ^ Config.addrWidth) &&
    decide ((c.range h).lo % 2 ^ c.addrShift = 0) && decide (((c.range h).hi + 1) % 2 ^ c.addrShift = 0)

/-- The pairs R7 (a) lets overlap: the watchdog's range and one that claims no writes. -/
def mayOverlap (h g : Handler) : Bool :=
  (h == .wdog && !g.answersWrites) || (g == .wdog && !h.answersWrites)

/-- R7 (a) for one pair of handlers. -/
def Cfg.apart (c : Cfg) (h g : Handler) : Bool :=
  h == g || mayOverlap h g || decide ((c.range h).hi < (c.range g).lo) || decide ((c.range g).hi < (c.range h).lo)

/-- R7 (a), (e): every range is well placed and the ranges are pairwise apart. -/
def Cfg.mapWf (c : Cfg) : Bool :=
  handlersInOrder.all fun h => c.rangeWf h && handlersInOrder.all fun g => c.apart h g

/-- `n` is a power of two. -/
def isPowerOfTwo (n : Nat) : Bool := decide (2 ^ Nat.log2 n = n)

/-- The constraints of R6 on the protection coprocessor's parameters. -/
def Cfg.protWf (c : Cfg) : Bool :=
  decide (1 ≤ c.protTable.length) && decide (c.protRdShift ≤ 15) && decide (1 ≤ c.protKeyW) &&
    decide (c.protKeyLo + c.protKeyW ≤ 16)

/-- Does the colour map give one colour to each value of the 15 colour bits? -/
def ColorMap.wf : ColorMap → Bool
  | .rgb555 => true
  | .table entries => decide (entries.length = 2 ^ 15)

/-- The constraints of R6 on the video parameters. -/
def Cfg.videoWf (c : Cfg) : Bool :=
  isPowerOfTwo c.vramWords && decide (1024 ≤ c.vramWords) && decide (c.vramWords % Config.ring = 0) &&
    decide (c.rowBaseMask &&& (c.vramWords - 1) = c.rowBaseMask) && decide (c.rowBaseMask % Config.ring = 0) &&
    decide (c.colScaleLog2 ≤ 1) && isPowerOfTwo (c.palIndexMask + 1) && c.hostColor.wf &&
    decide (1 ≤ c.screenW) && decide (1 ≤ c.screenH)

/-- R6 and R7 (b), (c), (d): the windows fit the memories behind them. -/
def Cfg.windowsWf (c : Cfg) : Bool :=
  decide (c.nvramBytes % 2 = 0) && decide (c.lastOffset .nvram * 2 + 1 < c.nvramBytes) &&
    decide (c.gromBytes % 2 = 0) && decide (c.gromHighOffset % 2 = 0) && decide (c.gromHighOffset < c.gromBytes) &&
    decide (c.lastOffset .grom * 2 + 1 + (if c.gromLarge then c.gromHighOffset else 0) < c.gromBytes) &&
    decide (c.lastOffset .input ≤ 3)

/-- The constraints of R6 on the control register and the sound port. -/
def Cfg.registersWf (c : Cfg) : Bool :=
  decide (c.ctrlVbankBit ≤ 15) && decide (c.ctrlGbankBit ≤ 15) && decide (c.ctrlVbankBit ≠ c.ctrlGbankBit) &&
    decide (c.sndReady ≠ c.sndNotready)

/-- The constraints of R6 on the frame parameters. -/
def Cfg.frameWf (c : Cfg) : Bool :=
  decide (1 ≤ c.sliceCount) && decide (1 ≤ c.budget0.den) && decide (1 ≤ c.budget1.den)

/-- A well-formed configuration (R7). -/
def Cfg.wf (c : Cfg) : Bool :=
  decide (c.addrShift ≤ 8) && c.mapWf && c.protWf && c.videoWf && c.windowsWf && c.registersWf && c.frameWf

/-! ### The colour function (R151) -/

/-- Five colour bits to eight, `c8` of R151. -/
def expandFive (v : BitVec 5) : BitVec 8 := (v.setWidth 8 <<< 3) ||| (v.setWidth 8 >>> 2)

/-- The default of REFCFG (R151): red 14:10, green 9:5, blue 4:0. -/
def rgb555Color (v : Pixel) : Color :=
  expandFive (v.extractLsb' 10 5) ++ expandFive (v.extractLsb' 5 5) ++ expandFive (v.extractLsb' 0 5)

/-- The host colour of the 15 colour bits under a colour map. -/
def mapColor : ColorMap → Pixel → Color
  | .rgb555, v => rgb555Color v
  | .table entries, v => entries.getD v.toNat 0

/-- `HostColor(v)`: bits 14:0 only (R151). -/
def Cfg.colorOf (c : Cfg) (v : Word) : Color := mapColor c.hostColor (v.setWidth 15)

/-! ### The same configuration (R6): every parameter has the same value, however it is written -/

/-- The two records give the same rational. -/
def Budget.same (a b : Budget) : Bool :=
  decide (a = b) || (decide (0 < a.den) && decide (0 < b.den) && decide (a.num * b.den = b.num * a.den))

/-- The two records give the same function. -/
def ColorMap.same (a b : ColorMap) : Bool :=
  decide (a = b) || (List.range (2 ^ 15)).all fun n => mapColor a (BitVec.ofNat 15 n) == mapColor b (BitVec.ofNat 15 n)

/-- The two records give every parameter of R6 the same value. -/
def Cfg.same (c d : Cfg) : Bool :=
  decide (c = { d with budget0 := c.budget0, budget1 := c.budget1, hostColor := c.hostColor }) &&
    c.budget0.same d.budget0 && c.budget1.same d.budget1 && c.hostColor.same d.hostColor

/-! ### Cycle and sample shares (R176, R179, R181) -/

/-- `BUDGET[p]`. -/
def Cfg.budget (c : Cfg) : Proc → Budget
  | .p0 => c.budget0
  | .p1 => c.budget1

/-- `OVERSHOOT_MAX[p]`. -/
def Cfg.overshootMax (c : Cfg) : Proc → Nat
  | .p0 => c.overshootMax0
  | .p1 => c.overshootMax1

/-- `target_p(i) = floor(BUDGET[p] × (i + 1) / SLICE_COUNT)` (R181), exact. -/
def Cfg.target (c : Cfg) (p : Proc) (i : Nat) : Nat :=
  ((c.budget p).num * (i + 1)) / ((c.budget p).den * c.sliceCount)

/-- `floor(BUDGET[p])`. -/
def Cfg.budgetFloor (c : Cfg) (p : Proc) : Nat := (c.budget p).num / (c.budget p).den

/-- `floor(FRAME_SAMPLES / SLICE_COUNT)` (R179). -/
def Cfg.sampleShare (c : Cfg) : Nat := c.frameSamples / c.sliceCount

/-! ### The spec's test configurations (92_eei_decisions.md section 2) -/

/-- REFCFG. -/
def refCfg : Cfg where
  addrShift := 4
  vramRange := ⟨0x00000000, 0x003FFFFF⟩
  nvramRange := ⟨0x01400000, 0x0141FFFF⟩
  nvweRange := ⟨0x01480000, 0x014FFFFF⟩
  inputRange := ⟨0x01600000, 0x0160003F⟩
  palRange := ⟨0x01800000, 0x0187FFFF⟩
  protRange := ⟨0x01B00000, 0x01B6FFFF⟩
  ctrlRange := ⟨0x01F00000, 0x01F0001F⟩
  gromRange := ⟨0x02000000, 0x02FFFFFF⟩
  sndstRange := ⟨0x01D00000, 0x01D0001F⟩
  sndlatchRange := ⟨0x01D01020, 0x01D0103F⟩
  wdogRange := ⟨0x01D81070, 0x01D8107F⟩
  protTable := [0x13, 0x27, 0x0F, 0x1F, 0x3E, 0x13, 0x2A, 0x05]
  protRdShift := 9
  protKeyLo := 9
  protKeyW := 6
  vramWords := 0x80000
  rowBaseMask := 0x3FE00
  colScaleLog2 := 1
  palIndexMask := 0x7FFF
  hostColor := .rgb555
  nvramBytes := 0x4000
  gromBytes := 0x400000
  gromHighOffset := 0x200000
  gromLarge := true
  ctrlVbankBit := 5
  ctrlGbankBit := 7
  sndackPolls := 128
  sndReady := 0x0000
  sndNotready := 0xFFFF
  sliceCount := 288
  budget0 := ⟨1000000, 1⟩
  budget1 := ⟨33333, 1⟩
  overshootMax0 := 0
  overshootMax1 := 0
  frameSamples := 800
  screenW := 400
  screenH := 254

/-- SMALLCFG. -/
def smallCfg : Cfg :=
  { refCfg with
    sliceCount := 4, budget0 := ⟨10, 1⟩, budget1 := ⟨3, 1⟩, frameSamples := 10
    screenW := 8, screenH := 4, sndackPolls := 2 }

end Sys2Proof
end

