-- ==== Sys2Proof/Syntax.lean ====
section
/-! DEFINITION. The operations of the block, one constructor for each row of spec/opcode_table.json, with
their operands (R74, R86, R87). -/

namespace Sys2Proof

/-- A scanline descriptor (R85). -/
structure Desc where
  rowAddress : Word
  colAddress : Word
  leftBlank : Word
  rightBlank : Word
  deriving DecidableEq, Repr

/-- One move of the DMA agent (R145): writes of video words, in order, and perhaps a new palette latch. -/
structure DmaMove where
  writes : List (Nat × Word)
  latch : Option Word
  deriving DecidableEq, Repr

/-- A saved image (R209), with the configuration it was taken under (assumption log 13). -/
structure SavedImage where
  cfg : Cfg
  nvram : Memory 8
  palram : Memory 16
  palcache : Memory 24
  vram : Memory 16
  vbank : Bool
  gbankOff0 : Nat
  gbankOff1 : Nat
  ctrlval : Word
  nvwe : Bool
  pallatch : Word
  deriving DecidableEq, Repr

/-- What the host supplies at power-on (R221): the configuration, the graphics-ROM image and perhaps a
non-volatile image. -/
structure PowerOn where
  cfg : Cfg
  grom : Memory 8
  nvram : Option (Memory 8)
  deriving DecidableEq, Repr

/-- The operations.  `k` is a word offset (R51), `i` a palette index, `v` the written word; DFLT, SNDST and
SNDLATCH keep the address because they log it. -/
inductive Instr where
  -- format BUS (R73)
  | dfltRd (a : Addr)
  | dfltWr (a : Addr) (v : Word)
  | vramRd (k : Nat)
  | vramWr (k : Nat) (v : Word)
  | nvramRd (k : Nat)
  | nvramWr (k : Nat) (v : Word)
  | nvweWr
  | inputRd0
  | inputRd1
  | inputRd2
  | dipRd
  | palRd (i : Nat)
  | palWr (i : Nat) (v : Word)
  | protRd
  | protWr (v : Word)
  | ctrlWr (v : Word)
  | gromRd (k : Nat)
  | sndstRd (a : Addr)
  | sndlatchWr (a : Addr) (v : Word)
  | wdogWr
  -- format SEQ (R86)
  | ftStart
  | ftRstchk
  | ftInsnap
  | ftClracc
  | ftRun0
  | ftRun1
  | ftScan
  | ftAudio
  | ftNext
  | ftFlush
  | ftPalrc
  | ftBlit
  | ftDone
  -- format ENV (R87)
  | hPoweron (p : PowerOn)
  | hResetreq
  | hBind (b : Bool)
  | hDirty
  | hInput (in0 in1 in2 : Word) (dip0 dip1 : Byte)
  | hSave
  | hRestore (img : SavedImage)
  | eDma (m : DmaMove)
  | eFmirq (level : Bool)
  | scanline (d : Desc)
  | protRst
  deriving DecidableEq, Repr

end Sys2Proof
end

