-- ==== Sys2Proof/WellFormed.lean ====
section
/-! DEFINITION. The operations whose operands exist under a configuration. -/

namespace Sys2Proof

/-- The address of a handler's register lies in its range. -/
def Cfg.holds (c : Cfg) (h : Handler) (a : Addr) : Bool :=
  decide ((c.range h).lo ≤ a.toNat) && decide (a.toNat ≤ (c.range h).hi)

/-- Can a save have produced the image?  Its memories list no cell twice, and its bank offsets have the values that R23
allows (assumption log 13). -/
def SavedImage.isImage (c : Cfg) (img : SavedImage) : Bool :=
  img.nvram.ordered && img.palram.ordered && img.palcache.ordered && img.vram.ordered &&
    (img.gbankOff0 == 0 || (c.gromLarge && img.gbankOff0 == c.gromHighOffset)) && img.gbankOff1 == 0

/-- Under `c`, do the operands of the operation name places that exist?  An operation without such operands
is always well formed. -/
def Instr.wellFormed (c : Cfg) : Instr → Bool
  | .dfltRd a => c.select a.toNat false == none
  | .dfltWr a _ => c.select a.toNat true == none
  | .vramRd k => decide (k ≤ c.lastOffset .vram)
  | .vramWr k _ => decide (k ≤ c.lastOffset .vram)
  | .nvramRd k => decide (k ≤ c.lastOffset .nvram)
  | .nvramWr k _ => decide (k ≤ c.lastOffset .nvram)
  | .nvweWr => true
  | .inputRd0 => true
  | .inputRd1 => decide (1 ≤ c.lastOffset .input)
  | .inputRd2 => decide (2 ≤ c.lastOffset .input)
  | .dipRd => decide (3 ≤ c.lastOffset .input)
  | .palRd i => decide (i < c.palEntries) && decide (c.paletteOffset i ≤ c.lastOffset .pal)
  | .palWr i _ => decide (i < c.palEntries) && decide (c.paletteOffset i ≤ c.lastOffset .pal)
  | .protRd => true
  | .protWr _ => true
  | .ctrlWr _ => true
  | .gromRd k => decide (k ≤ c.lastOffset .grom)
  | .sndstRd a => c.holds .sndst a
  | .sndlatchWr a _ => c.holds .sndlatch a
  | .wdogWr => true
  | .ftStart => true
  | .ftRstchk => true
  | .ftInsnap => true
  | .ftClracc => true
  | .ftRun0 => true
  | .ftRun1 => true
  | .ftScan => true
  | .ftAudio => true
  | .ftNext => true
  | .ftFlush => true
  | .ftPalrc => true
  | .ftBlit => true
  | .ftDone => true
  | .hPoweron p =>
    p.grom.wf p.cfg.gromBytes && (p.nvram.all fun image => image.wf p.cfg.nvramBytes)
  | .hResetreq => true
  | .hBind _ => true
  | .hDirty => true
  | .hInput _ _ _ _ _ => true
  | .hSave => true
  | .hRestore img => img.isImage c
  | .eDma m => m.writes.all fun w => decide (w.1 < c.vramWords)
  | .eFmirq _ => true
  | .scanline _ => true
  | .protRst => true

end Sys2Proof
end

