-- ==== Sys2Proof/Decode.lean ====
section
/-! DEFINITION. The decoder of the four formats (R70 to R73, R85 to R87), total on every record and rejecting by
name, and after it the encoder and the reading of a word of spec/opcode_table.json. -/

namespace Sys2Proof

/-! ### Records: what arrives at the block -/

/-- The operand of an `ENV` move (R87).  The spec gives these no bits but the descriptor's 64 (assumption
log 9). -/
inductive EnvArg where
  | none
  | bit (b : Bool)
  | inputs (in0 in1 in2 : Word) (dip0 dip1 : Byte)
  | image (img : SavedImage)
  | dma (m : DmaMove)
  | desc (d : BitVec 64)
  | powerOn (p : PowerOn)
  deriving DecidableEq, Repr

/-- One record in one of the formats: a 49-bit transaction (R70), a phase code (R86), or a move code with its
operand (R87). -/
inductive Record where
  | bus (t : BitVec 49)
  | seq (phase : BitVec 4)
  | env (code : BitVec 4) (arg : EnvArg)
  deriving DecidableEq, Repr

/-- Why a record is no operation (R88). -/
inductive DecodeError where
  /-- A code of `OPSEL` that rule R73 does not list. -/
  | invalidOpsel
  /-- A phase code 13 to 15. -/
  | invalidPhase
  /-- A move code 11 to 15. -/
  | invalidMove
  /-- A move whose operand is not of the kind rule R87 gives it. -/
  | wrongOperand
  deriving DecidableEq, Repr

/-! ### Format BUS -/

/-- `T[48]`: true for a write. -/
def busRw (t : BitVec 49) : Bool := t.getLsbD 48
/-- `T[47:16]`. -/
def busAddr (t : BitVec 49) : Addr := t.extractLsb' 16 32
/-- `T[15:0]`. -/
def busData (t : BitVec 49) : Word := t.extractLsb' 0 16
/-- The record `rw ‖ addr ‖ wdata`. -/
def busRecord (rw : Bool) (addr : Addr) (wdata : Word) : BitVec 49 := BitVec.ofBool rw ++ addr ++ wdata

/-- The rows of the operation select table (R73). -/
inductive BusOp where
  | dfltRd | dfltWr | vramRd | vramWr | nvramRd | nvramWr | nvweWr | inputRd0 | inputRd1 | inputRd2 | dipRd
  | palRd | palWr | protRd | protWr | ctrlWr | gromRd | sndstRd | sndlatchWr | wdogWr
  deriving DecidableEq, Repr

/-- A row of the table: the bits that matter, their values, the operation. -/
structure OpselRow where
  mask : BitVec 7
  value : BitVec 7
  op : BusOp
  deriving DecidableEq, Repr

/-- The table of R73. -/
def opselTable : List OpselRow :=
  [⟨0x7C, 0x00, .dfltRd⟩, ⟨0x7C, 0x40, .dfltWr⟩, ⟨0x7C, 0x04, .vramRd⟩, ⟨0x7C, 0x44, .vramWr⟩,
   ⟨0x7C, 0x08, .nvramRd⟩, ⟨0x7C, 0x48, .nvramWr⟩, ⟨0x7C, 0x4C, .nvweWr⟩,
   ⟨0x7F, 0x10, .inputRd0⟩, ⟨0x7F, 0x11, .inputRd1⟩, ⟨0x7F, 0x12, .inputRd2⟩, ⟨0x7F, 0x13, .dipRd⟩,
   ⟨0x7C, 0x14, .palRd⟩, ⟨0x7C, 0x54, .palWr⟩, ⟨0x7C, 0x18, .protRd⟩, ⟨0x7C, 0x58, .protWr⟩] ++
  [⟨0x7C, 0x5C, .ctrlWr⟩, ⟨0x7C, 0x20, .gromRd⟩, ⟨0x7C, 0x24, .sndstRd⟩, ⟨0x7C, 0x68, .sndlatchWr⟩,
   ⟨0x7C, 0x6C, .wdogWr⟩]

/-- Stage 2: the operation of a 7-bit code, `none` where the table has no row (R73, R88). -/
def decodeOpsel (o : BitVec 7) : Option BusOp :=
  (opselTable.find? fun row => o &&& row.mask == row.value).map OpselRow.op

/-- `k`, the word offset of an address in the range of the handler that claims it; 0 for the default, which
has none. -/
def Cfg.offsetOf (c : Cfg) (h : Option Handler) (addr : Nat) : Nat :=
  match h with
  | none => 0
  | some h => c.wordOffset h addr

/-- `OPSEL = rw ‖ HSEL ‖ pp`, `pp` the two low bits of `k` (R73). -/
def Cfg.opselOf (c : Cfg) (rw : Bool) (addr : Nat) : BitVec 7 :=
  let h := c.select addr rw
  BitVec.ofBool rw ++ selectCode h ++ BitVec.ofNat 2 (c.offsetOf h addr)

/-- The operands of a selected operation (R74). -/
def busOperands (c : Cfg) (op : BusOp) (a : Addr) (v : Word) : Instr :=
  match op with
  | .dfltRd => .dfltRd a
  | .dfltWr => .dfltWr a v
  | .vramRd => .vramRd (c.wordOffset .vram a.toNat)
  | .vramWr => .vramWr (c.wordOffset .vram a.toNat) v
  | .nvramRd => .nvramRd (c.wordOffset .nvram a.toNat)
  | .nvramWr => .nvramWr (c.wordOffset .nvram a.toNat) v
  | .nvweWr => .nvweWr
  | .inputRd0 => .inputRd0
  | .inputRd1 => .inputRd1
  | .inputRd2 => .inputRd2
  | .dipRd => .dipRd
  | .palRd => .palRd (c.paletteIndex a.toNat)
  | .palWr => .palWr (c.paletteIndex a.toNat) v
  | .protRd => .protRd
  | .protWr => .protWr v
  | .ctrlWr => .ctrlWr v
  | .gromRd => .gromRd (c.wordOffset .grom a.toNat)
  | .sndstRd => .sndstRd a
  | .sndlatchWr => .sndlatchWr a v
  | .wdogWr => .wdogWr

/-- A bus transaction to its operation: stage 1, stage 2, operands (R71, R73, R74). -/
def decodeBus (c : Cfg) (t : BitVec 49) : Except DecodeError Instr :=
  match decodeOpsel (c.opselOf (busRw t) (busAddr t).toNat) with
  | none => .error .invalidOpsel
  | some op => .ok (busOperands c op (busAddr t) (busData t))

/-! ### Format DESC (R85) -/

/-- The fields of a 64-bit descriptor. -/
def decodeDesc (d : BitVec 64) : Desc :=
  ⟨d.extractLsb' 48 16, d.extractLsb' 32 16, d.extractLsb' 16 16, d.extractLsb' 0 16⟩

/-- A descriptor as 64 bits. -/
def encodeDesc (d : Desc) : BitVec 64 := d.rowAddress ++ d.colAddress ++ d.leftBlank ++ d.rightBlank

/-! ### Format SEQ (R86) -/

/-- The step that a phase code selects. -/
def decodeSeq (p : BitVec 4) : Except DecodeError Instr :=
  match p.toNat with
  | 0 => .ok .ftStart
  | 1 => .ok .ftRstchk
  | 2 => .ok .ftInsnap
  | 3 => .ok .ftClracc
  | 4 => .ok .ftRun0
  | 5 => .ok .ftRun1
  | 6 => .ok .ftScan
  | 7 => .ok .ftAudio
  | 8 => .ok .ftNext
  | 9 => .ok .ftFlush
  | 10 => .ok .ftPalrc
  | 11 => .ok .ftBlit
  | 12 => .ok .ftDone
  | _ => .error .invalidPhase

/-! ### Format ENV (R87) -/

/-- The rejection of a move: a reserved code, or an operand of the wrong kind for its code. -/
def rejectMove (code : BitVec 4) : Except DecodeError Instr :=
  if code.toNat < 11 then .error .wrongOperand else .error .invalidMove

/-- The move that a code and its operand select. -/
def decodeEnv (code : BitVec 4) (arg : EnvArg) : Except DecodeError Instr :=
  match arg with
  | .none =>
    if code = 1 then .ok .hResetreq
    else if code = 3 then .ok .hDirty
    else if code = 5 then .ok .hSave
    else if code = 10 then .ok .protRst
    else rejectMove code
  | .bit b =>
    if code = 2 then .ok (.hBind b)
    else if code = 8 then .ok (.eFmirq b)
    else rejectMove code
  | .inputs i0 i1 i2 d0 d1 => if code = 4 then .ok (.hInput i0 i1 i2 d0 d1) else rejectMove code
  | .image img => if code = 6 then .ok (.hRestore img) else rejectMove code
  | .dma m => if code = 7 then .ok (.eDma m) else rejectMove code
  | .desc d => if code = 9 then .ok (.scanline (decodeDesc d)) else rejectMove code
  | .powerOn p => if code = 0 then .ok (.hPoweron p) else rejectMove code

/-- The decoder. -/
def decode (c : Cfg) : Record → Except DecodeError Instr
  | .bus t => decodeBus c t
  | .seq p => decodeSeq p
  | .env code arg => decodeEnv code arg

/-! ### The encoder -/

/-- The transaction that reaches word offset `k` of a handler. -/
def encodeAt (c : Cfg) (h : Handler) (rw : Bool) (k : Nat) (v : Word) : Record :=
  .bus (busRecord rw (BitVec.ofNat 32 (c.wordAddr h k)) v)

/-- A record of the operation.  An operand the operation does not have is written as 0, and the address bits it
ignores are clear. -/
def encode (c : Cfg) : Instr → Record
  | .dfltRd a => .bus (busRecord false a 0)
  | .dfltWr a v => .bus (busRecord true a v)
  | .vramRd k => encodeAt c .vram false k 0
  | .vramWr k v => encodeAt c .vram true k v
  | .nvramRd k => encodeAt c .nvram false k 0
  | .nvramWr k v => encodeAt c .nvram true k v
  | .nvweWr => encodeAt c .nvwe true 0 0
  | .inputRd0 => encodeAt c .input false 0 0
  | .inputRd1 => encodeAt c .input false 1 0
  | .inputRd2 => encodeAt c .input false 2 0
  | .dipRd => encodeAt c .input false 3 0
  | .palRd i => encodeAt c .pal false (c.paletteOffset i) 0
  | .palWr i v => encodeAt c .pal true (c.paletteOffset i) v
  | .protRd => encodeAt c .prot false 0 0
  | .protWr v => encodeAt c .prot true 0 v
  | .ctrlWr v => encodeAt c .ctrl true 0 v
  | .gromRd k => encodeAt c .grom false k 0
  | .sndstRd a => .bus (busRecord false a 0)
  | .sndlatchWr a v => .bus (busRecord true a v)
  | .wdogWr => encodeAt c .wdog true 0 0
  | .ftStart => .seq 0
  | .ftRstchk => .seq 1
  | .ftInsnap => .seq 2
  | .ftClracc => .seq 3
  | .ftRun0 => .seq 4
  | .ftRun1 => .seq 5
  | .ftScan => .seq 6
  | .ftAudio => .seq 7
  | .ftNext => .seq 8
  | .ftFlush => .seq 9
  | .ftPalrc => .seq 10
  | .ftBlit => .seq 11
  | .ftDone => .seq 12
  | .hPoweron p => .env 0 (.powerOn p)
  | .hResetreq => .env 1 .none
  | .hBind b => .env 2 (.bit b)
  | .hDirty => .env 3 .none
  | .hInput i0 i1 i2 d0 d1 => .env 4 (.inputs i0 i1 i2 d0 d1)
  | .hSave => .env 5 .none
  | .hRestore img => .env 6 (.image img)
  | .eDma m => .env 7 (.dma m)
  | .eFmirq level => .env 8 (.bit level)
  | .scanline d => .env 9 (.desc (encodeDesc d))
  | .protRst => .env 10 .none

/-! ### Pseudo-operations (R91): abbreviations of the spec's notation, each the record or the steps it stands for -/

/-- `STRIKE`: a write to the first address of the write-enable window, data 0. -/
def strikeRecord (c : Cfg) : Record := encodeAt c .nvwe true 0 0

/-- `CHALLENGE key`: the key in its field, to the first protection address. -/
def challengeRecord (c : Cfg) (key : Nat) : Record :=
  encodeAt c .prot true 0 (BitVec.ofNat 16 (key <<< c.protKeyLo))

/-- `RESPONSE`: a read of the first protection address. -/
def responseRecord (c : Cfg) : Record := encodeAt c .prot false 0 0

/-- `SETCTRL vb, gb`: the two bank bits in their places, to the first control address. -/
def setCtrlRecord (c : Cfg) (vb gb : Bool) : Record :=
  encodeAt c .ctrl true 0
    (BitVec.ofNat 16 ((vb.toNat <<< c.ctrlVbankBit) ||| (gb.toNat <<< c.ctrlGbankBit)))

/-- `KICK`: a write to the first watchdog address, data 0. -/
def kickRecord (c : Cfg) : Record := encodeAt c .wdog true 0 0

/-- The steps of `slices` slices (R91). -/
def sliceSteps : Nat → List Instr
  | 0 => []
  | n + 1 => .ftRun0 :: .ftRun1 :: .ftScan :: .ftAudio :: .ftNext :: sliceSteps n

/-- `FRAME`: the steps of one frame, in order. -/
def frameSteps (c : Cfg) : List Instr :=
  let opening : List Instr := [.ftStart, .ftRstchk, .ftInsnap, .ftClracc]
  let closing : List Instr := [.ftFlush, .ftPalrc, .ftBlit, .ftDone]
  opening ++ (sliceSteps c.sliceCount ++ closing)

/-! ### A word of spec/opcode_table.json (assumption log 10) -/

/-- The handler of an `HSEL` code; `none` for the default and for the codes that do not exist. -/
def handlerOfCode (code : Nat) : Option Handler :=
  match code with
  | 1 => some .vram
  | 2 => some .nvram
  | 3 => some .nvwe
  | 4 => some .input
  | 5 => some .pal
  | 6 => some .prot
  | 7 => some .ctrl
  | 8 => some .grom
  | 9 => some .sndst
  | 10 => some .sndlatch
  | 11 => some .wdog
  | _ => none

/-- An address that no handler claims in the direction, if there is one: 0, or the address after some range. -/
def Cfg.defaultAddr (c : Cfg) (rw : Bool) : Nat :=
  ((0 :: handlersInOrder.map fun h => (c.range h).hi + 1).find? fun a =>
    decide (a < 2 ^ Config.addrWidth) && c.select a rw == none).getD 0

/-- A word offset inside the handler's range whose low two bits are `pp`.  Where the range has none: 0, since the bits
matter for INPUT only (R73, R92), and for INPUT none. -/
def Cfg.offsetWith (c : Cfg) (h : Handler) (pp : Nat) : Option Nat :=
  if pp ≤ c.lastOffset h then some pp
  else if h = .input then none
  else some 0

/-- A transaction whose `OPSEL` code is `w`, the bits that do not matter apart, with data 0. -/
def transactionOf (c : Cfg) (w : Nat) : Option (BitVec 49) :=
  let rw := decide (64 ≤ w % 128)
  match handlerOfCode (w / 4 % 16) with
  | some h => (c.offsetWith h (w % 4)).map fun k => busRecord rw (BitVec.ofNat 32 (c.wordAddr h k)) 0
  | none => some (busRecord rw (BitVec.ofNat 32 (c.defaultAddr rw)) 0)

/-- The three formats of the table number their codes from bit 0 and a word carries no format.  A word of 4 bits,
and a longer one below 13, is read as a phase code; any other as an `OPSEL` code. -/
def wordIsPhase (nbits w : Nat) : Bool := decide (nbits ≤ 4) || (decide (nbits ≠ 7) && decide (w < 13))

/-- The transaction of a word that is an `OPSEL` code of R73, if there is one. -/
def wordTransaction (c : Cfg) (w : Nat) : Option (BitVec 49) :=
  if w < 128 && (decodeOpsel (BitVec.ofNat 7 w)).isSome then transactionOf c w else none

/-- What the decoder reads from a word of the table, under REFCFG. -/
def decodeTableWord (nbits w : Nat) : Option Instr :=
  if wordIsPhase nbits w then
    if w < 16 then (decodeSeq (BitVec.ofNat 4 w)).toOption else none
  else
    match wordTransaction refCfg w with
    | some t => (decodeBus refCfg t).toOption
    | none => none

end Sys2Proof
end

