-- ==== Sys2Proof/Machine/State.lean ====
section
/-! DEFINITION. The state of the block (R20) with its ports, the refusals, and the state after power-on. -/

namespace Sys2Proof.Machine

/-- The sequencer's phases (R38, R86). -/
inductive Phase where
  | idle | rstchk | insnap | clracc | run0 | run1 | scan | audio | next | flush | palrc | blit | done
  deriving DecidableEq, Repr

/-- The run grant `Run(proc, cycles)` now open, and how many cycles of it the processor has executed so far (R175,
R187). -/
structure Grant where
  proc : Proc
  cycles : Nat
  ran : Nat
  deriving DecidableEq, Repr

/-- The values of the sequencer's input ports at one of its turns (R9: `env X`): `FRAME_GO`, the descriptor
lines, and of the granted processor how many cycles of its grant it has executed and whether it has returned. -/
structure SeqInputs where
  frameGo : Bool
  desc : BitVec 64
  ran : Nat
  returned : Bool
  deriving DecidableEq, Repr

/-- Whose turn is next in the total order of R60: the sequencer's, with its input ports; a transaction of `P0`;
a move of another agent. -/
inductive Turn where
  | seq (inp : SeqInputs)
  | bus (t : BitVec 49)
  | env (code : BitVec 4) (arg : EnvArg)
  deriving DecidableEq, Repr

/-- An output event (R93). -/
inductive Event where
  | run (p : Proc) (cycles : Nat)
  | audioRender (samples : Nat)
  | soundLatch (v : Word)
  | procReset (p : Proc)
  | firq (level : Bool)
  deriving DecidableEq, Repr

/-- An entry of the diagnostic log (R103): direction, address, and the data of a write. -/
structure LogEntry where
  write : Bool
  addr : Addr
  data : Option Word
  deriving DecidableEq, Repr

/-- The state.  The cells of R20 stand under their own names; before them the constants of a run (R45 a), after
them the ports and the model's own fields.  The pixel counter `X` has no value between operations (R41). -/
structure State where
  -- constants of a run
  cfg : Cfg
  grom : Memory 8
  -- protection (R21)
  cursor : Nat
  -- bank and control state (R22 to R26)
  vbank : Bool
  gbankOff0 : Nat
  gbankOff1 : Nat
  ctrlval : Word
  nvwe : Bool
  sndack : Nat
  -- video inputs and flags, input latches, reset request (R27 to R31)
  paldirty : Bool
  surfaceBound : Bool
  pallatch : Word
  inRaw0 : Word
  inRaw1 : Word
  inRaw2 : Word
  dipRaw0 : Byte
  dipRaw1 : Byte
  insnap0 : Word
  insnap1 : Word
  insnap2 : Word
  dipsnap : Word
  resetPending : Bool
  -- memories (R32 to R37)
  vram : Memory 16
  palram : Memory 16
  palcache : Memory 24
  nvram : Memory 8
  pixbuf : Memory 15
  hostsurf : Memory 24
  -- frame timing (R38 to R40)
  phase : Phase
  slice : Nat
  cycDone0 : Nat
  cycDone1 : Nat
  audDone : Nat
  framecnt : BitVec 32
  -- input ports of the sequencer (R9, R38, R175, R178)
  frameGo : Bool
  desc : BitVec 64
  ran : Nat
  returned : Bool
  -- output ports (R93, R100, R187, R209); `events` and `log` oldest first
  grant : Option Grant
  rdata : Option Word
  saved : Option SavedImage
  events : List Event
  log : List LogEntry
  -- the model's own: the turns still to come, and how many free draws were taken
  schedule : List Turn
  draw : Nat
  deriving DecidableEq, Repr

/-- The block raises no exception (R200): there is no fault. -/
inductive Fault where
  deriving DecidableEq, Repr

/-- Why the model refuses to go on.  Every refusal is safe: the spec says that the refused case never arises or
is to be refused. -/
inductive Refusal where
  /-- An operation that has no meaning yet; raised by `exec` only.  Safe. -/
  | notModelled (mnemonic : String)
  /-- H.POWERON with a configuration that is not well-formed (R7, R221).  Safe. -/
  | badConfiguration
  /-- H.RESTORE of an image taken under another configuration, or of a wrong size (93 U17).  Safe. -/
  | imageMismatch
  /-- `step`: a record that is no operation (R88).  Safe. -/
  | invalidRecord (e : DecodeError)
  /-- `step`: an operation whose operand names a cell that does not exist, or an image that lists a cell twice or
  that no save can produce (assumption log 13, 25).  Safe. -/
  | illFormedOperand
  /-- `step`: a turn at a point of the order where R60, R133, R145, R146, R175 or R208 does not allow it.  Safe. -/
  | outOfOrder
  deriving DecidableEq, Repr

/-- The state that power-on leaves under a configuration, a graphics-ROM image and perhaps a non-volatile image,
as draw number `n` (R46, R221).  Cells the spec leaves unspecified hold free draws.  The output history starts
empty: it does not hold the two `ProcReset` that a move H.POWERON emits (the model's choice, assumption log 1). -/
def State.initial (c : Cfg) (grom : Memory 8) (nvram : Option (Memory 8)) (n : Nat) : State where
  cfg := c
  grom := grom
  cursor := 0
  vbank := false
  gbankOff0 := 0
  gbankOff1 := 0
  ctrlval := 0
  nvwe := false
  sndack := 0
  paldirty := Config.drawPaldirty n
  surfaceBound := Config.drawSurfaceBound n
  pallatch := Config.drawPallatch n
  inRaw0 := Config.drawInRaw n 0
  inRaw1 := Config.drawInRaw n 1
  inRaw2 := Config.drawInRaw n 2
  dipRaw0 := Config.drawDipRaw n 0
  dipRaw1 := Config.drawDipRaw n 1
  insnap0 := 0
  insnap1 := 0
  insnap2 := 0
  dipsnap := 0
  resetPending := false
  vram := ⟨n, []⟩
  palram := ⟨n, []⟩
  palcache := ⟨n, []⟩
  nvram := nvram.getD ⟨n, []⟩
  pixbuf := ⟨n, []⟩
  hostsurf := ⟨n, []⟩
  phase := .idle
  slice := 0
  cycDone0 := 0
  cycDone1 := 0
  audDone := 0
  framecnt := 0
  frameGo := false
  desc := Config.drawDesc n
  ran := Config.drawRan n
  returned := Config.drawReturned n
  grant := none
  rdata := none
  saved := none
  events := []
  log := []
  schedule := []
  draw := n

/-- The machine right after power-on under REFCFG, no images supplied (assumption log 1, 15). -/
def State.reset : State := State.initial refCfg ⟨0, []⟩ none 0

end Sys2Proof.Machine
end

