-- ==== Sys2Proof/Machine/Ops.lean ====
section
/-! DEFINITION. The named operations over the state: memory reads and writes, outputs, and the soft reset, the
block's one trap-like entry (R206). -/

namespace Sys2Proof.Machine

/-! ### Reads of the memories -/

/-- `VRAM[i]` (R32). -/
def State.readVram (s : State) (i : Nat) : Word := readCell Config.drawVram s.vram i
/-- `PALRAM[i]` (R33). -/
def State.readPalram (s : State) (i : Nat) : Word := readCell Config.drawPalram s.palram i
/-- `PALCACHE[i]` (R34). -/
def State.readPalcache (s : State) (i : Nat) : Color := readCell Config.drawPalcache s.palcache i
/-- `NVRAM[i]` (R35). -/
def State.readNvram (s : State) (i : Nat) : Byte := readCell Config.drawNvram s.nvram i
/-- `GROM[i]` (R36). -/
def State.readGrom (s : State) (i : Nat) : Byte := readCell Config.drawGrom s.grom i

/-- The place of row `y`, column `x` in a surface of width `w` (assumption log 23). -/
def surfaceIndex (w y x : Nat) : Nat := y * w + x

/-- `PIXBUF[y][x]` (R37). -/
def State.readPixbuf (s : State) (y x : Nat) : Pixel :=
  readCell Config.drawPixbuf s.pixbuf (surfaceIndex s.cfg.screenW y x)
/-- `HOSTSURF[y][x]` (R37). -/
def State.readHostsurf (s : State) (y x : Nat) : Color :=
  readCell Config.drawHostsurf s.hostsurf (surfaceIndex s.cfg.screenW y x)

/-! ### Writes of the memories -/

/-- `VRAM[i] <- v`. -/
def State.writeVram (s : State) (i : Nat) (v : Word) : State := { s with vram := writeCell s.vram i v }
/-- `PALRAM[i] <- v`. -/
def State.writePalram (s : State) (i : Nat) (v : Word) : State := { s with palram := writeCell s.palram i v }
/-- `PALCACHE[i] <- v`. -/
def State.writePalcache (s : State) (i : Nat) (v : Color) : State := { s with palcache := writeCell s.palcache i v }
/-- `NVRAM[i] <- v`. -/
def State.writeNvram (s : State) (i : Nat) (v : Byte) : State := { s with nvram := writeCell s.nvram i v }

/-! ### Outputs -/

/-- `emit e` (R93). -/
def State.emit (s : State) (e : Event) : State := { s with events := s.events ++ [e] }
/-- `emit Log(...)` (R103). -/
def State.addLog (s : State) (e : LogEntry) : State := { s with log := s.log ++ [e] }
/-- `rdata <- v` (R100). -/
def State.answer (s : State) (v : Word) : State := { s with rdata := some v }
/-- `PHASE <- p` (R171). -/
def State.goto (s : State) (p : Phase) : State := { s with phase := p }

/-! ### Cycle counters -/

/-- `CYC_DONE[p]` (R39). -/
def State.cycDone (s : State) : Proc → Nat
  | .p0 => s.cycDone0
  | .p1 => s.cycDone1

/-- `CYC_DONE[p] <- n`. -/
def State.setCycDone (s : State) (p : Proc) (n : Nat) : State :=
  match p with
  | .p0 => { s with cycDone0 := n }
  | .p1 => { s with cycDone1 := n }

/-! ### Phase codes -/

/-- The code of a phase (R86). -/
def phaseCode : Phase → BitVec 4
  | .idle => 0
  | .rstchk => 1
  | .insnap => 2
  | .clracc => 3
  | .run0 => 4
  | .run1 => 5
  | .scan => 6
  | .audio => 7
  | .next => 8
  | .flush => 9
  | .palrc => 10
  | .blit => 11
  | .done => 12

/-- The phase of a code, `none` for 13 to 15 (R86, R88). -/
def phaseOfCode (n : Nat) : Option Phase :=
  match n with
  | 0 => some .idle
  | 1 => some .rstchk
  | 2 => some .insnap
  | 3 => some .clracc
  | 4 => some .run0
  | 5 => some .run1
  | 6 => some .scan
  | 7 => some .audio
  | 8 => some .next
  | 9 => some .flush
  | 10 => some .palrc
  | 11 => some .blit
  | 12 => some .done
  | _ => none

/-! ### The soft reset (R172, R206) -/

/-- `PROT.RST` (R133). -/
def resetCursor (s : State) : State := { s with cursor := 0 }

/-- The soft reset: both processors are reset, then the cursor, the sound-acknowledge counter and the request
itself are cleared (R172, R206).  `PALLATCH` is unspecified afterwards (R29, R46): a fresh free draw (assumption
log 14).  Nothing is saved, so there is no return (R207). -/
def softReset (s : State) : State :=
  { resetCursor ((s.emit (.procReset .p0)).emit (.procReset .p1)) with
    sndack := 0, resetPending := false, draw := s.draw + 1, pallatch := Config.drawPallatch (s.draw + 1) }

end Sys2Proof.Machine
end

