-- ==== Sys2Proof/Machine/Operands.lean ====
section
/-! DEFINITION. The operand forms: what a word offset, a palette index, a control word, a challenge word, a
video bus word and a descriptor stand for. -/

namespace Sys2Proof.Machine

/-! ### A 16-bit word and its two bytes (R52: the less significant byte with the lower index) -/

/-- Bits 7:0. -/
def lowByte (v : Word) : Byte := v.extractLsb' 0 8
/-- Bits 15:8. -/
def highByte (v : Word) : Byte := v.extractLsb' 8 8
/-- `hi ‖ lo`. -/
def pairBytes (hi lo : Byte) : Word := hi ++ lo

/-! ### Video window (R53, R141) -/

/-- `w0`, the video word that bus bits 7:0 belong to. -/
def videoWord0 (c : Cfg) (k : Nat) : Nat := (2 * k) % c.vramWords
/-- `w1`, the video word that bus bits 15:8 belong to. -/
def videoWord1 (c : Cfg) (k : Nat) : Nat := (2 * k + 1) % c.vramWords

/-- The lane that the bank flag selects: low when `VBANK = 1` (R22). -/
def selectedLane (vbank : Bool) (v : Word) : Byte := if vbank then lowByte v else highByte v

/-- A video word after a write of one lane: with `VBANK = 1` the low lane is written and the high lane stamped
with the latch byte, with `VBANK = 0` the high lane is written and the low lane kept (R143). -/
def laneWritten (vbank : Bool) (latch : Word) (old : Word) (b : Byte) : Word :=
  if vbank then pairBytes (lowByte latch) b else pairBytes b (lowByte old)

/-! ### Non-volatile window and graphics-ROM window (R54, R55) -/

/-- The byte index of bus bits 7:0 of word offset `k`. -/
def byteIndex (k : Nat) : Nat := 2 * k
/-- The `GROM` byte index of bus bits 7:0 of word offset `k` under a bank offset. -/
def gromIndex (bank k : Nat) : Nat := bank + 2 * k

/-! ### Protection words (R77, R78) -/

/-- The response for a cursor: the table byte shifted into its place, cut to 16 bits (R77). -/
def protResponse (c : Cfg) (cursor : Nat) : Word :=
  BitVec.ofNat 16 (((c.protTable[cursor]?.getD (Config.drawTable cursor)).toNat) <<< c.protRdShift)

/-- The key field of a challenge word (R78). -/
def protKey (c : Cfg) (v : Word) : Nat := (v.toNat >>> c.protKeyLo) % 2 ^ c.protKeyW

/-- The index, counted from `j`, of the first byte equal to `key` (R132). -/
def firstMatch (key : Nat) : List Byte → Nat → Option Nat
  | [], _ => none
  | b :: rest, j => if b.toNat = key then some j else firstMatch key rest (j + 1)

/-- The cursor after a challenge: the first matching index, else 0 (R132). -/
def protCursor (c : Cfg) (v : Word) : Nat := (firstMatch (protKey c v) c.protTable 0).getD 0

/-! ### Scanline descriptor (R146) -/

/-- The row's place in `VRAM`. -/
def rowBase (c : Cfg) (d : Desc) : Nat := (d.rowAddress.toNat <<< 9) &&& c.rowBaseMask
/-- The first column, in pixels. -/
def firstColumn (c : Cfg) (d : Desc) : Nat := d.colAddress.toNat <<< c.colScaleLog2
/-- The `VRAM` index of a column: it wraps inside the row's 512 words. -/
def columnWord (base col : Nat) : Nat := base + col % Config.ring
/-- A video word's 15 significant colour bits (R80). -/
def significantBits (v : Word) : Pixel := v.setWidth 15

end Sys2Proof.Machine
end

