-- ==== Sys2Proof/Machine/Flags.lean ====
section
/-! DEFINITION. The flags of R44 and how an operation computes them, and the stall outputs.  There are no
condition codes: no flag is a side effect of a computation (R44). -/

namespace Sys2Proof.Machine

/-- `VB`, the video bank bit of a control word (R76). -/
def controlVbank (c : Cfg) (v : Word) : Bool := v.getLsbD c.ctrlVbankBit
/-- `GB`, the graphics-ROM bank bit of a control word (R76). -/
def controlGbank (c : Cfg) (v : Word) : Bool := v.getLsbD c.ctrlGbankBit

/-- The bank offset that a control word selects (R112). -/
def controlBankOffset (c : Cfg) (v : Word) : Nat :=
  if controlGbank c v && c.gromLarge then c.gromHighOffset else 0

/-- `NVWE` gates non-volatile writes (R105). -/
def nvramWritable (s : State) : Bool := s.nvwe

/-- Is a grant to `p` open (R175)? -/
def grantOpen (p : Proc) (s : State) : Bool :=
  match s.grant with
  | none => false
  | some g => g.proc == p

/-- `STALL[p]`: 1 except while a grant to `p` is open and fewer cycles than it requests are executed; an overshoot
runs with the stall reasserted (R187). -/
def stall (p : Proc) (s : State) : Bool :=
  match s.grant with
  | none => true
  | some g => g.proc != p || decide (g.cycles ≤ g.ran)

end Sys2Proof.Machine
end

