-- ==== Sys2Proof/Machine/Bus.lean ====
section
/-! DEFINITION. The operations of the dispatch decoder (40_bus_dispatch.md). -/

namespace Sys2Proof.Machine

/-- An input port's answer: the snapshot complemented (R83, R108). -/
def answerPort (s : State) (snapshot : Word) : State := s.answer (~~~snapshot)

/-- DFLT.RD (R101). -/
def execDfltRd (a : Addr) (s : State) : Host.Outcome State Fault Refusal :=
  .next ((s.addLog ⟨false, a, none⟩).answer 0xFFFF)

/-- DFLT.WR (R102). -/
def execDfltWr (a : Addr) (v : Word) (s : State) : Host.Outcome State Fault Refusal :=
  .next (s.addLog ⟨true, a, some v⟩)

/-- NVRAM.RD (R104). -/
def execNvramRd (k : Nat) (s : State) : Host.Outcome State Fault Refusal :=
  .next (s.answer (pairBytes (s.readNvram (byteIndex k + 1)) (s.readNvram (byteIndex k))))

/-- NVRAM.WR (R105). -/
def execNvramWr (k : Nat) (v : Word) (s : State) : Host.Outcome State Fault Refusal :=
  .next (if nvramWritable s then
    (s.writeNvram (byteIndex k) (lowByte v)).writeNvram (byteIndex k + 1) (highByte v) else s)

/-- NVWE.WR, the strike (R106). -/
def execNvweWr (s : State) : Host.Outcome State Fault Refusal :=
  .next { s with nvwe := true }

/-- INPUT.RD, port 0 (R108). -/
def execInputRd0 (s : State) : Host.Outcome State Fault Refusal :=
  .next (answerPort s s.insnap0)

/-- INPUT.RD, port 1 (R108). -/
def execInputRd1 (s : State) : Host.Outcome State Fault Refusal :=
  .next (answerPort s s.insnap1)

/-- INPUT.RD, port 2 (R108). -/
def execInputRd2 (s : State) : Host.Outcome State Fault Refusal :=
  .next (answerPort s s.insnap2)

/-- DIP.RD (R109): not complemented. -/
def execDipRd (s : State) : Host.Outcome State Fault Refusal :=
  .next (s.answer s.dipsnap)

/-- PAL.RD (R111): the raw entry, all 16 bits. -/
def execPalRd (i : Nat) (s : State) : Host.Outcome State Fault Refusal :=
  .next (s.answer (s.readPalram i))

/-- PAL.WR (R110): the raw entry and its cached colour together. -/
def execPalWr (i : Nat) (v : Word) (s : State) : Host.Outcome State Fault Refusal :=
  .next ((s.writePalram i v).writePalcache i (s.cfg.colorOf v))

/-- CTRL.WR (R112). -/
def execCtrlWr (v : Word) (s : State) : Host.Outcome State Fault Refusal :=
  .next { s with
    ctrlval := v, vbank := controlVbank s.cfg v, gbankOff0 := controlBankOffset s.cfg v }

/-- GROM.RD (R113): slot 0 of the bank offsets only. -/
def execGromRd (k : Nat) (s : State) : Host.Outcome State Fault Refusal :=
  .next (s.answer
    (pairBytes (s.readGrom (gromIndex s.gbankOff0 k + 1)) (s.readGrom (gromIndex s.gbankOff0 k))))

/-- SNDST.RD (R115). -/
def execSndstRd (a : Addr) (s : State) : Host.Outcome State Fault Refusal :=
  let t := s.addLog ⟨false, a, none⟩
  .next (if s.sndack = 0 then t.answer s.cfg.sndNotready
    else { t.answer s.cfg.sndReady with sndack := s.sndack - 1 })

/-- SNDLATCH.WR (R116). -/
def execSndlatchWr (a : Addr) (v : Word) (s : State) : Host.Outcome State Fault Refusal :=
  .next ({ s.emit (.soundLatch v) with sndack := s.cfg.sndackPolls }.addLog ⟨true, a, some v⟩)

/-- WDOG.WR (R117): nothing. -/
def execWdogWr (s : State) : Host.Outcome State Fault Refusal :=
  .next s

end Sys2Proof.Machine
end

