-- ==== Sys2Proof/Machine/Video.lean ====
section
/-! DEFINITION. Video memory lanes, the DMA agent, the scanline interpreter, palette recalculation and blit
(42_video.md). -/

namespace Sys2Proof.Machine

/-! ### Video memory from the bus -/

/-- VRAM.RD (R142): the selected lanes of two consecutive video words. -/
def execVramRd (k : Nat) (s : State) : Host.Outcome State Fault Refusal :=
  .next (s.answer (pairBytes
    (selectedLane s.vbank (s.readVram (videoWord1 s.cfg k)))
    (selectedLane s.vbank (s.readVram (videoWord0 s.cfg k)))))

/-- VRAM.WR (R143): both words are computed from the state before the write. -/
def execVramWr (k : Nat) (v : Word) (s : State) : Host.Outcome State Fault Refusal :=
  .next ((s.writeVram (videoWord0 s.cfg k)
      (laneWritten s.vbank s.pallatch (s.readVram (videoWord0 s.cfg k)) (lowByte v))).writeVram
    (videoWord1 s.cfg k)
      (laneWritten s.vbank s.pallatch (s.readVram (videoWord1 s.cfg k)) (highByte v)))

/-- E.DMA (R145): the move's video words, in order, and its palette latch if it sets one. -/
def execEDma (m : DmaMove) (s : State) : Host.Outcome State Fault Refusal :=
  .next { s with vram := writeCells s.vram m.writes, pallatch := m.latch.getD s.pallatch }

/-! ### The scanline interpreter (R146) -/

/-- The loop of R146 over the host pixels: `n` pixels are left, `x` is the pixel counter `X`, `col` the column.
A pixel at or beyond `SCREEN_W` is fetched and dropped. -/
def scanLine (d : Desc) : Nat → Nat → Nat → State → State
  | 0, _, _, s => s
  | n + 1, x, col, s =>
    let v := significantBits (s.readVram (columnWord (rowBase s.cfg d) col))
    let j := x - d.leftBlank.toNat
    scanLine d n (x + 1) (col + 1)
      (if j < s.cfg.screenW then
        { s with pixbuf := writeCell s.pixbuf (surfaceIndex s.cfg.screenW d.rowAddress.toNat j) v }
      else s)

/-- SCANLINE of a descriptor: nothing without a surface or outside the visible rows, else the loop from
`leftBlank` while `X < rightBlank`. -/
def drawLine (d : Desc) (s : State) : State :=
  if s.surfaceBound = false then s
  else if s.cfg.screenH ≤ d.rowAddress.toNat then s
  else scanLine d (d.rightBlank.toNat - d.leftBlank.toNat) d.leftBlank.toNat (firstColumn s.cfg d) s

/-- SCANLINE (R146). -/
def execScanline (d : Desc) (s : State) : Host.Outcome State Fault Refusal :=
  .next (drawLine d s)

/-! ### Palette and blit -/

/-- PAL.RECALC (R150): every cached colour again, and the dirty flag cleared. -/
def recalcPalette (s : State) : State :=
  { s with
    palcache := fillCells s.palcache s.cfg.palEntries fun i => s.cfg.colorOf (s.readPalram i)
    paldirty := false }

/-- The palette index of a row-buffer value (R152). -/
def pixelIndex (c : Cfg) (v : Pixel) : Nat := v.toNat &&& c.palIndexMask

/-- BLIT (R152): every cell of the surface from the palette cache; `n` runs over the rows, one after another. -/
def blitSurface (s : State) : State :=
  { s with
    hostsurf := fillCells s.hostsurf (s.cfg.screenH * s.cfg.screenW) fun n =>
      s.readPalcache (pixelIndex s.cfg (readCell Config.drawPixbuf s.pixbuf n)) }

end Sys2Proof.Machine
end

