-- ==== Sys2Proof/Machine/Frame.lean ====
section
/-! DEFINITION. The steps of the frame sequencer (43_frame_timing.md). -/

namespace Sys2Proof.Machine

/-- FT.START (R170): leaves `IDLE` when `FRAME_GO` is 1. -/
def execFtStart (s : State) : Host.Outcome State Fault Refusal :=
  .next (if s.frameGo then s.goto .rstchk else s)

/-- FT.RSTCHK (R172): the soft reset, if one is requested. -/
def execFtRstchk (s : State) : Host.Outcome State Fault Refusal :=
  .next ((if s.resetPending then softReset s else s).goto .insnap)

/-- FT.INSNAP (R173). -/
def execFtInsnap (s : State) : Host.Outcome State Fault Refusal :=
  .next { s.goto .clracc with
    insnap0 := s.inRaw0, insnap1 := s.inRaw1, insnap2 := s.inRaw2
    dipsnap := pairBytes s.dipRaw1 s.dipRaw0 }

/-- FT.CLRACC (R174). -/
def execFtClracc (s : State) : Host.Outcome State Fault Refusal :=
  .next { s.goto .run0 with cycDone0 := 0, cycDone1 := 0, audDone := 0, slice := 0 }

/-- The cycles of a grant that the processor has executed, from what it reports: never fewer than before, never more
than `OVERSHOOT_MAX[p]` past the request (R175). -/
def ranSoFar (p : Proc) (g : Grant) (s : State) : Nat :=
  min (max g.ran s.ran) (g.cycles + s.cfg.overshootMax p)

/-- One turn with the grant `g` open (assumption log 7).  If the processor has returned, it has run at least what was
requested: its cycles are counted, the grant is closed and the step goes on to `after` (R175, R176).  If not, the
step stays where it is, with what was executed noted for the stall (R187); a processor that never returns hangs the
frame (R189). -/
def runGranted (p : Proc) (after : Phase) (g : Grant) (s : State) : State :=
  if s.returned then
    { s.setCycDone p (s.cycDone p + max g.cycles (ranSoFar p g s)) with grant := none, phase := after }
  else { s with grant := some { g with ran := ranSoFar p g s } }

/-- One turn of a run step of processor `p` that goes on to `after`.  With no grant open the target is compared with the
cycles done, and a grant of the difference is made, or none if the difference is not positive (R176). -/
def runStep (p : Proc) (after : Phase) (s : State) : State :=
  match s.grant with
  | none =>
    let request := s.cfg.target p s.slice - s.cycDone p
    if 0 < request then runGranted p after ⟨p, request, 0⟩ (s.emit (.run p request))
    else s.goto after
  | some g => runGranted p after g s

/-- FT.RUN0 (R176). -/
def execFtRun0 (s : State) : Host.Outcome State Fault Refusal :=
  .next (runStep .p0 .run1 s)

/-- FT.RUN1 (R177). -/
def execFtRun1 (s : State) : Host.Outcome State Fault Refusal :=
  .next (runStep .p1 .scan s)

/-- FT.SCAN (R178): the line of the descriptor on the display generator's lines. -/
def execFtScan (s : State) : Host.Outcome State Fault Refusal :=
  .next ((drawLine (decodeDesc s.desc) s).goto .audio)

/-- `AudioRender(n)`, if there is anything to render (R179, R182). -/
def renderAudio (n : Nat) (s : State) : State := if 0 < n then s.emit (.audioRender n) else s

/-- FT.AUDIO (R179). -/
def execFtAudio (s : State) : Host.Outcome State Fault Refusal :=
  .next { (renderAudio s.cfg.sampleShare s).goto .next with audDone := s.audDone + s.cfg.sampleShare }

/-- FT.NEXT (R180). -/
def execFtNext (s : State) : Host.Outcome State Fault Refusal :=
  .next { s with
    phase := if s.slice + 1 < s.cfg.sliceCount then .run0 else .flush
    slice := s.slice + 1 }

/-- FT.FLUSH (R182). -/
def execFtFlush (s : State) : Host.Outcome State Fault Refusal :=
  .next { (renderAudio (s.cfg.frameSamples - s.audDone) s).goto .palrc with audDone := s.cfg.frameSamples }

/-- FT.PALRC (R183). -/
def execFtPalrc (s : State) : Host.Outcome State Fault Refusal :=
  .next ((if s.surfaceBound && s.paldirty then recalcPalette s else s).goto .blit)

/-- FT.BLIT (R184). -/
def execFtBlit (s : State) : Host.Outcome State Fault Refusal :=
  .next ((if s.surfaceBound then blitSurface s else s).goto .done)

/-- FT.DONE (R185). -/
def execFtDone (s : State) : Host.Outcome State Fault Refusal :=
  .next { s.goto .idle with framecnt := s.framecnt + 1 }

end Sys2Proof.Machine
end

