-- ==== Sys2Proof/Machine/HostMoves.lean ====
section
/-! DEFINITION. The moves of the host and of the FM chip (60_exceptions.md, 70_reset_and_hazards.md). -/

namespace Sys2Proof.Machine

/-- The cells that power-on writes, from what the host supplies and a fresh draw `n` (R221).  What was already put
on the output ports, the turns to come and the sequencer's input ports stay (assumption log 26). -/
def powerOnState (p : PowerOn) (n : Nat) (s : State) : State :=
  { s with
    cfg := p.cfg, grom := p.grom, cursor := 0, vbank := false, gbankOff0 := 0, gbankOff1 := 0
    ctrlval := 0, nvwe := false, sndack := 0
    paldirty := Config.drawPaldirty n, surfaceBound := Config.drawSurfaceBound n
    pallatch := Config.drawPallatch n
    inRaw0 := Config.drawInRaw n 0, inRaw1 := Config.drawInRaw n 1, inRaw2 := Config.drawInRaw n 2
    dipRaw0 := Config.drawDipRaw n 0, dipRaw1 := Config.drawDipRaw n 1
    insnap0 := 0, insnap1 := 0, insnap2 := 0, dipsnap := 0, resetPending := false
    vram := ⟨n, []⟩, palram := ⟨n, []⟩, palcache := ⟨n, []⟩, nvram := p.nvram.getD ⟨n, []⟩
    pixbuf := ⟨n, []⟩, hostsurf := ⟨n, []⟩
    phase := .idle, slice := 0, cycDone0 := 0, cycDone1 := 0, audDone := 0, framecnt := 0
    grant := none, draw := n }

/-- H.POWERON (R221): refused under a configuration that is not well-formed. -/
def execHPoweron (p : PowerOn) (s : State) : Host.Outcome State Fault Refusal :=
  if p.cfg.wf then
    .next (((powerOnState p (s.draw + 1) s).emit (.procReset .p0)).emit (.procReset .p1))
  else .refused .badConfiguration

/-- H.RESETREQ (R202). -/
def execHResetreq (s : State) : Host.Outcome State Fault Refusal :=
  .next { s with resetPending := true }

/-- H.BIND (R208). -/
def execHBind (b : Bool) (s : State) : Host.Outcome State Fault Refusal :=
  .next { s with surfaceBound := b }

/-- H.DIRTY (R208). -/
def execHDirty (s : State) : Host.Outcome State Fault Refusal :=
  .next { s with paldirty := true }

/-- H.INPUT (R208). -/
def execHInput (in0 in1 in2 : Word) (dip0 dip1 : Byte) (s : State) : Host.Outcome State Fault Refusal :=
  .next { s with inRaw0 := in0, inRaw1 := in1, inRaw2 := in2, dipRaw0 := dip0, dipRaw1 := dip1 }

/-- The image that a save captures (R209). -/
def imageOf (s : State) : SavedImage where
  cfg := s.cfg
  nvram := s.nvram
  palram := s.palram
  palcache := s.palcache
  vram := s.vram
  vbank := s.vbank
  gbankOff0 := s.gbankOff0
  gbankOff1 := s.gbankOff1
  ctrlval := s.ctrlval
  nvwe := s.nvwe
  pallatch := s.pallatch

/-- H.SAVE (R209): the image is returned, no cell changes. -/
def execHSave (s : State) : Host.Outcome State Fault Refusal :=
  .next { s with saved := some (imageOf s) }

/-- Was the image taken under configuration `c`, and has it the size of the memories (93 U17)?  It is of the wrong size
if it lists a cell that a memory does not have (assumption log 13). -/
def imageFits (c : Cfg) (img : SavedImage) : Bool :=
  img.cfg.same c && img.nvram.fits c.nvramBytes && img.palram.fits c.palEntries &&
    img.palcache.fits c.palEntries && img.vram.fits c.vramWords

/-- H.RESTORE (R210): every cell the image holds, and no other; refused for another configuration or a wrong size (93
U17). -/
def execHRestore (img : SavedImage) (s : State) : Host.Outcome State Fault Refusal :=
  if imageFits s.cfg img then
    .next { s with
      nvram := img.nvram, palram := img.palram, palcache := img.palcache, vram := img.vram
      vbank := img.vbank, gbankOff0 := img.gbankOff0, gbankOff1 := img.gbankOff1
      ctrlval := img.ctrlval, nvwe := img.nvwe, pallatch := img.pallatch }
  else .refused .imageMismatch

/-- E.FMIRQ (R204): the line is relayed; the block keeps no state for it. -/
def execEFmirq (level : Bool) (s : State) : Host.Outcome State Fault Refusal :=
  .next (s.emit (.firq level))

end Sys2Proof.Machine
end

