-- ==== Sys2Proof/Machine/Protection.lean ====
section
/-! DEFINITION. The protection coprocessor (41_protection.md). -/

namespace Sys2Proof.Machine

/-- PROT.RD (R131): the response of the cursor, then the cursor advances cyclically. -/
def execProtRd (s : State) : Host.Outcome State Fault Refusal :=
  .next { s.answer (protResponse s.cfg s.cursor) with
    cursor := (s.cursor + 1) % s.cfg.protTable.length }

/-- PROT.WR (R132): the cursor goes to the first entry equal to the key, else to 0. -/
def execProtWr (v : Word) (s : State) : Host.Outcome State Fault Refusal :=
  .next { s with cursor := protCursor s.cfg v }

/-- PROT.RST (R133). -/
def execProtRst (s : State) : Host.Outcome State Fault Refusal :=
  .next (resetCursor s)

end Sys2Proof.Machine
end

