-- ==== Sys2Proof/Machine/Dispatch.lean ====
section
/-! DEFINITION. The meaning of every operation: one arm for each constructor. -/

namespace Sys2Proof.Machine

/-- The effect of one operation on the state. -/
def exec (i : Instr) (s : State) : Host.Outcome State Fault Refusal :=
  match i with
  | .dfltRd a => Sys2Proof.Machine.execDfltRd a s
  | .dfltWr a v => Sys2Proof.Machine.execDfltWr a v s
  | .vramRd k => Sys2Proof.Machine.execVramRd k s
  | .vramWr k v => Sys2Proof.Machine.execVramWr k v s
  | .nvramRd k => Sys2Proof.Machine.execNvramRd k s
  | .nvramWr k v => Sys2Proof.Machine.execNvramWr k v s
  | .nvweWr => Sys2Proof.Machine.execNvweWr s
  | .inputRd0 => Sys2Proof.Machine.execInputRd0 s
  | .inputRd1 => Sys2Proof.Machine.execInputRd1 s
  | .inputRd2 => Sys2Proof.Machine.execInputRd2 s
  | .dipRd => Sys2Proof.Machine.execDipRd s
  | .palRd k => Sys2Proof.Machine.execPalRd k s
  | .palWr k v => Sys2Proof.Machine.execPalWr k v s
  | .protRd => Sys2Proof.Machine.execProtRd s
  | .protWr v => Sys2Proof.Machine.execProtWr v s
  | .ctrlWr v => Sys2Proof.Machine.execCtrlWr v s
  | .gromRd k => Sys2Proof.Machine.execGromRd k s
  | .sndstRd a => Sys2Proof.Machine.execSndstRd a s
  | .sndlatchWr a v => Sys2Proof.Machine.execSndlatchWr a v s
  | .wdogWr => Sys2Proof.Machine.execWdogWr s
  | .ftStart => Sys2Proof.Machine.execFtStart s
  | .ftRstchk => Sys2Proof.Machine.execFtRstchk s
  | .ftInsnap => Sys2Proof.Machine.execFtInsnap s
  | .ftClracc => Sys2Proof.Machine.execFtClracc s
  | .ftRun0 => Sys2Proof.Machine.execFtRun0 s
  | .ftRun1 => Sys2Proof.Machine.execFtRun1 s
  | .ftScan => Sys2Proof.Machine.execFtScan s
  | .ftAudio => Sys2Proof.Machine.execFtAudio s
  | .ftNext => Sys2Proof.Machine.execFtNext s
  | .ftFlush => Sys2Proof.Machine.execFtFlush s
  | .ftPalrc => Sys2Proof.Machine.execFtPalrc s
  | .ftBlit => Sys2Proof.Machine.execFtBlit s
  | .ftDone => Sys2Proof.Machine.execFtDone s
  | .hPoweron p => Sys2Proof.Machine.execHPoweron p s
  | .hResetreq => Sys2Proof.Machine.execHResetreq s
  | .hBind b => Sys2Proof.Machine.execHBind b s
  | .hDirty => Sys2Proof.Machine.execHDirty s
  | .hInput i0 i1 i2 d0 d1 => Sys2Proof.Machine.execHInput i0 i1 i2 d0 d1 s
  | .hSave => Sys2Proof.Machine.execHSave s
  | .hRestore img => Sys2Proof.Machine.execHRestore img s
  | .eDma m => Sys2Proof.Machine.execEDma m s
  | .eFmirq level => Sys2Proof.Machine.execEFmirq level s
  | .scanline d => Sys2Proof.Machine.execScanline d s
  | .protRst => Sys2Proof.Machine.execProtRst s

end Sys2Proof.Machine
end

