-- ==== Sys2Proof/Machine/Fetch.lean ====
section
/-! DEFINITION. Whose turn it is, which operations a point of the order allows, and what a turn adds around its
operation. -/

namespace Sys2Proof.Machine

/-- The record of the turn that is next, and the state with that turn taken from the schedule.  An empty schedule
is the sequencer's turn with its ports as they stand; a scheduled turn of the sequencer first drives its ports
(assumption log 5).  The sequencer's record is its phase code alone (R86). -/
def fetch (s : State) : Record × State :=
  match s.schedule with
  | [] => (.seq (phaseCode s.phase), s)
  | .seq inp :: rest =>
    (.seq (phaseCode s.phase),
      { s with schedule := rest, frameGo := inp.frameGo, desc := inp.desc, ran := inp.ran, returned := inp.returned })
  | .bus t :: rest => (.bus t, { s with schedule := rest })
  | .env code arg :: rest => (.env code arg, { s with schedule := rest })

/-- When an operation may happen. -/
inductive Window where
  /-- Inside a grant to the primary processor: bus transactions (R60 b, R175). -/
  | grant0
  /-- Whenever the sequencer has the turn: the steps (R171).  The turn may raise `FRAME_GO` in `IDLE` only (R208). -/
  | sequencer
  /-- Between frames: the host's moves (R208). -/
  | idle
  /-- Inside a `RUN0` step: the DMA agent's moves (R68, R145). -/
  | run0
  /-- In phase `SCAN`: the display generator's line (R146). -/
  | scan
  /-- In phase `RSTCHK` with a reset pending: a part of the soft reset (R133, R220; assumption log 8). -/
  | pendingReset
  /-- At any time: power-on, which starts a new run (R221), and the interrupt relay (R204). -/
  | anytime
  deriving DecidableEq, Repr

/-- The window of each operation. -/
def turnWindow : Instr → Window
  | .dfltRd _ => .grant0
  | .dfltWr _ _ => .grant0
  | .vramRd _ => .grant0
  | .vramWr _ _ => .grant0
  | .nvramRd _ => .grant0
  | .nvramWr _ _ => .grant0
  | .nvweWr => .grant0
  | .inputRd0 => .grant0
  | .inputRd1 => .grant0
  | .inputRd2 => .grant0
  | .dipRd => .grant0
  | .palRd _ => .grant0
  | .palWr _ _ => .grant0
  | .protRd => .grant0
  | .protWr _ => .grant0
  | .ctrlWr _ => .grant0
  | .gromRd _ => .grant0
  | .sndstRd _ => .grant0
  | .sndlatchWr _ _ => .grant0
  | .wdogWr => .grant0
  | .ftStart => .sequencer
  | .ftRstchk => .sequencer
  | .ftInsnap => .sequencer
  | .ftClracc => .sequencer
  | .ftRun0 => .sequencer
  | .ftRun1 => .sequencer
  | .ftScan => .sequencer
  | .ftAudio => .sequencer
  | .ftNext => .sequencer
  | .ftFlush => .sequencer
  | .ftPalrc => .sequencer
  | .ftBlit => .sequencer
  | .ftDone => .sequencer
  | .hPoweron _ => .anytime
  | .hResetreq => .idle
  | .hBind _ => .idle
  | .hDirty => .idle
  | .hInput _ _ _ _ _ => .idle
  | .hSave => .idle
  | .hRestore _ => .idle
  | .eDma _ => .run0
  | .eFmirq _ => .anytime
  | .scanline _ => .scan
  | .protRst => .pendingReset

/-- Does the turn that is next raise `FRAME_GO`?  Raising it is the host's move (R208; assumption log 5). -/
def raisesFrameGo (s : State) : Bool :=
  match s.schedule with
  | .seq inp :: _ => inp.frameGo && !s.frameGo
  | _ => false

/-- Is the window open in the state? -/
def windowOpen (s : State) : Window → Bool
  | .grant0 => s.phase == .run0 && grantOpen .p0 s
  | .sequencer => s.phase == .idle || !raisesFrameGo s
  | .idle => s.phase == .idle
  | .run0 => s.phase == .run0
  | .scan => s.phase == .scan
  | .pendingReset => s.phase == .rstchk && s.resetPending
  | .anytime => true

/-- What a turn adds after its operation.  The display generator's line in phase `SCAN` is the one line of
FT.SCAN, which then goes on to `AUDIO` (R178; assumption log 8); no other turn adds anything. -/
def settle (w : Window) (s : State) : State :=
  match w with
  | .scan => s.goto .audio
  | .grant0 | .sequencer | .idle | .run0 | .pendingReset | .anytime => s

/-- The state that runs the operation of a table word next (assumption log 10): a phase code becomes the phase, a
select code a transaction of the primary processor inside a grant.  A word that is neither becomes a move
with a reserved code, which is refused (R88). -/
def placeWord (s : State) (nbits w : Nat) : State :=
  if wordIsPhase nbits w then
    match phaseOfCode w with
    | some p => { s with phase := p, schedule := .seq ⟨s.frameGo, s.desc, s.ran, s.returned⟩ :: s.schedule }
    | none => { s with schedule := .env 15 .none :: s.schedule }
  else
    match wordTransaction s.cfg w with
    | some t => { s with phase := .run0, grant := some ⟨.p0, 1, 0⟩, schedule := .bus t :: s.schedule }
    | none => { s with schedule := .env 15 .none :: s.schedule }

end Sys2Proof.Machine
end

