-- ==== Sys2Proof/Machine/Step.lean ====
section
/-! DEFINITION. One step: the turn that is next is decoded, checked and performed. -/

namespace Sys2Proof.Machine

/-- What the turn makes of its operation's outcome. -/
def finish (w : Window) : Host.Outcome State Fault Refusal → Host.Outcome State Fault Refusal
  | .next s => .next (settle w s)
  | .fault r => .fault r
  | .refused r => .refused r

/-- One operation of the total order of R60.  A record that is no operation, an ill-formed operand and a turn out of
its place are refused by name (R88, R208; assumption log 6, 13, 25). -/
def step (s : State) : Host.Outcome State Fault Refusal :=
  match decode s.cfg (fetch s).1 with
  | .error e => .refused (.invalidRecord e)
  | .ok i =>
    if i.wellFormed s.cfg then
      if windowOpen s (turnWindow i) then finish (turnWindow i) (exec i (fetch s).2)
      else .refused .outOfOrder
    else .refused .illFormedOperand

/-- `s` with the operation of a word of spec/opcode_table.json placed where `step` fetches it (assumption
log 10). -/
def State.withFetchWord (s : State) (nbits w : Nat) : State := placeWord s nbits w

end Sys2Proof.Machine
end

