-- ==== Sys2Proof/Safety.lean ====
section
/-! DEFINITION. What holds in a safe run: the invariant of the block, part by part, and the agreement of the two
palettes. -/

namespace Sys2Proof.Machine

/-- Every memory has its canonical form and lists only cells that exist. -/
structure State.MemoriesOk (s : State) : Prop where
  vram : s.vram.wf s.cfg.vramWords = true
  palram : s.palram.wf s.cfg.palEntries = true
  palcache : s.palcache.wf s.cfg.palEntries = true
  nvram : s.nvram.wf s.cfg.nvramBytes = true
  grom : s.grom.wf s.cfg.gromBytes = true
  pixbuf : s.pixbuf.wf (s.cfg.screenH * s.cfg.screenW) = true
  hostsurf : s.hostsurf.wf (s.cfg.screenH * s.cfg.screenW) = true

/-- The bank offsets take only the values that rule R23 allows. -/
def State.BanksOk (s : State) : Prop :=
  (s.gbankOff0 = 0 ∨ (s.cfg.gromLarge = true ∧ s.gbankOff0 = s.cfg.gromHighOffset)) ∧ s.gbankOff1 = 0

/-- How many run steps of processor `p` this frame has finished, `none` before FT.CLRACC and after FT.DONE. -/
def State.runsDone (s : State) (p : Proc) : Option Nat :=
  match s.phase with
  | .idle | .rstchk | .insnap | .clracc => none
  | .run0 => some s.slice
  | .run1 => some (match p with | .p0 => s.slice + 1 | .p1 => s.slice)
  | .scan | .audio | .next => some (s.slice + 1)
  | .flush | .palrc | .blit | .done => some s.slice

/-- The bounds of rule R188 on the cycles of processor `p` after `n` finished run steps of the frame. -/
def Cfg.cyclesWithin (c : Cfg) (p : Proc) (n cycles : Nat) : Prop :=
  match n with
  | 0 => cycles = 0
  | i + 1 => c.target p i ≤ cycles ∧ cycles ≤ c.target p i + c.overshootMax p

/-- `CYC_DONE[p]` is within its bounds at every point of a frame (R188). -/
def State.CyclesOk (s : State) (p : Proc) : Prop :=
  ∀ n, s.runsDone p = some n → Cfg.cyclesWithin s.cfg p n (s.cycDone p)

/-- How many audio slices this frame has finished, `none` outside the slice loop and the flush. -/
def State.audioSlicesDone (s : State) : Option Nat :=
  match s.phase with
  | .run0 | .run1 | .scan | .audio | .flush => some s.slice
  | .next => some (s.slice + 1)
  | .idle | .rstchk | .insnap | .clracc | .palrc | .blit | .done => none

/-- `AUD_DONE` counts equal shares, then the whole buffer (R179, R182). -/
structure State.AudioOk (s : State) : Prop where
  bound : s.audDone ≤ s.cfg.frameSamples
  shares : ∀ n, s.audioSlicesDone = some n → s.audDone = n * s.cfg.sampleShare
  flushed : s.phase = .palrc ∨ s.phase = .blit ∨ s.phase = .done → s.audDone = s.cfg.frameSamples

/-- The phases of the slice loop. -/
def Phase.inSlice : Phase → Bool
  | .run0 | .run1 | .scan | .audio | .next => true
  | .idle | .rstchk | .insnap | .clracc | .flush | .palrc | .blit | .done => false

/-- The phases after the slice loop. -/
def Phase.afterSlices : Phase → Bool
  | .flush | .palrc | .blit | .done => true
  | .idle | .rstchk | .insnap | .clracc | .run0 | .run1 | .scan | .audio | .next => false

/-- The line counter is within its range (R38, R180). -/
structure State.SliceOk (s : State) : Prop where
  bound : s.slice ≤ s.cfg.sliceCount
  inside : s.phase.inSlice = true → s.slice < s.cfg.sliceCount
  after : s.phase.afterSlices = true → s.slice = s.cfg.sliceCount

/-- The run phase of a processor. -/
def runPhase : Proc → Phase
  | .p0 => .run0
  | .p1 => .run1

/-- How many steps of the frame are completed: the place of (`PHASE`, `SLICE`) in the order of R171, five steps to a
slice (R189). -/
def State.stepsDone (s : State) : Nat :=
  match s.phase with
  | .idle => 0
  | .rstchk => 1
  | .insnap => 2
  | .clracc => 3
  | .run0 => 4 + 5 * s.slice
  | .run1 => 4 + 5 * s.slice + 1
  | .scan => 4 + 5 * s.slice + 2
  | .audio => 4 + 5 * s.slice + 3
  | .next => 4 + 5 * s.slice + 4
  | .flush => 4 + 5 * s.slice
  | .palrc => 4 + 5 * s.slice + 1
  | .blit => 4 + 5 * s.slice + 2
  | .done => 4 + 5 * s.slice + 3

/-- An open grant belongs to the run step in progress, asks for exactly the cycles up to the target, and has run at
most the overshoot past them (R175, R187). -/
def State.GrantOk (s : State) : Prop :=
  ∀ g, s.grant = some g →
    s.phase = runPhase g.proc ∧ 0 < g.cycles ∧ s.cycDone g.proc + g.cycles = s.cfg.target g.proc s.slice ∧
      g.ran ≤ g.cycles + s.cfg.overshootMax g.proc

/-- The invariant of the block. -/
structure State.Inv (s : State) : Prop where
  cfg : s.cfg.wf = true
  memories : s.MemoriesOk
  cursor : s.cursor < s.cfg.protTable.length
  sndack : s.sndack ≤ s.cfg.sndackPolls
  banks : s.BanksOk
  slice : s.SliceOk
  grant : s.GrantOk
  cycles0 : s.CyclesOk .p0
  cycles1 : s.CyclesOk .p1
  audio : s.AudioOk

/-- The two configurations give every parameter of R6 the same value: the budgets are the same rationals, the host colours
the same function, everything else is equal. -/
def Cfg.sameParameters (c d : Cfg) : Prop :=
  c = { d with budget0 := c.budget0, budget1 := c.budget1, hostColor := c.hostColor } ∧
  (∀ p, c.budget p = d.budget p ∨
    (0 < (c.budget p).den ∧ 0 < (d.budget p).den ∧
      (c.budget p).num * (d.budget p).den = (d.budget p).num * (c.budget p).den)) ∧
  (∀ v : Word, c.colorOf v = d.colorOf v)

/-- The palette agreement of rule R34 for entry `i`. -/
def State.paletteAgrees (s : State) (i : Nat) : Prop := s.readPalcache i = s.cfg.colorOf (s.readPalram i)

/-- `n` times the same operation, nothing between. -/
def repeatExec (i : Instr) : Nat → State → Host.Outcome State Fault Refusal
  | 0, s => .next s
  | n + 1, s =>
    match exec i s with
    | .next t => repeatExec i n t
    | .fault r => .fault r
    | .refused r => .refused r

end Sys2Proof.Machine
end

