-- ==== Sys2Proof/Certificates/Slice0/Obligations.lean ====
section
/-! DEFINITION. The statements about the block.  Where a statement follows a decision of the spec (D<n> of
92_eei_decisions.md) or of the model (assumption log), its docstring says so.  No statement says anything of the
content of the diagnostic log (R103): where an operation logs, the log afterwards is some list. -/

open Sys2Proof Sys2Proof.Machine

/-! ### Steps, decoding, encoding -/

/-- A step performs the operation of the turn that is next, at these points of the order, each said from the state
alone: a step of the sequencer at any time, raising `FRAME_GO` in `IDLE` only; a bus transaction inside
a grant to the primary processor; a host move in `IDLE`; a DMA move in `RUN0`; a SCANLINE turn in `SCAN`, which then
goes on to `AUDIO`; a PROT.RST turn in a pending reset check; power-on and the interrupt relay at any time.  R60
gives the places of the first four.  The model's own are: that the order is a list of turns, an empty one the
sequencer's turn (assumption log 5), the places of the SCANLINE and PROT.RST turns (log 8), power-on at any time, where
R211 and R221 say once, before any other move (log 26), and a DMA move in `RUN0` with or without a grant (log 28). -/
def Obligations.StepRunsTheTurn : Prop :=
  ∀ s : State,
    (∀ i : Instr, s.schedule = [] → decode s.cfg (.seq (phaseCode s.phase)) = .ok i → step s = exec i s) ∧
    (∀ (inp : SeqInputs) (rest : List Turn) (i : Instr), s.schedule = .seq inp :: rest →
      s.phase = .idle ∨ s.frameGo = true ∨ inp.frameGo = false →
      decode s.cfg (.seq (phaseCode s.phase)) = .ok i →
      step s = exec i { s with
        schedule := rest, frameGo := inp.frameGo, desc := inp.desc, ran := inp.ran, returned := inp.returned }) ∧
    (∀ (b : BitVec 49) (rest : List Turn) (i : Instr) (g : Grant), s.schedule = .bus b :: rest →
      decode s.cfg (.bus b) = .ok i → i.wellFormed s.cfg = true →
      s.phase = .run0 → s.grant = some g → g.proc = .p0 → step s = exec i { s with schedule := rest }) ∧
    (∀ (code : BitVec 4) (arg : EnvArg) (rest : List Turn) (i : Instr), s.schedule = .env code arg :: rest →
      decode s.cfg (.env code arg) = .ok i → i.wellFormed s.cfg = true →
      ((i = .hResetreq ∨ (∃ b : Bool, i = .hBind b) ∨ i = .hDirty ∨
          (∃ (i0 i1 i2 : Word) (d0 d1 : Byte), i = .hInput i0 i1 i2 d0 d1) ∨ i = .hSave ∨
          ∃ img : SavedImage, i = .hRestore img) →
        s.phase = .idle → step s = exec i { s with schedule := rest }) ∧
      ((∃ p : PowerOn, i = .hPoweron p) ∨ (∃ level : Bool, i = .eFmirq level) →
        step s = exec i { s with schedule := rest }) ∧
      ((∃ m : DmaMove, i = .eDma m) → s.phase = .run0 → step s = exec i { s with schedule := rest }) ∧
      ((∃ d : Desc, i = .scanline d) → s.phase = .scan → ∃ t : State,
        exec i { s with schedule := rest } = .next t ∧ step s = .next { t with phase := .audio }) ∧
      (i = .protRst → s.phase = .rstchk → s.resetPending = true → step s = exec i { s with schedule := rest }))

/-- The sequencer's turn always takes the step of its phase: no step of it is refused (R189: none of the steps has an
error return).  Its turn is an empty schedule or a turn of the sequencer in the schedule, which does not raise
`FRAME_GO` outside `IDLE` (R208); that is the model's choice (assumption log 5), and the case of an empty schedule
leaves the outside world no move. -/
def Obligations.SequencerStepsNeverRefused : Prop :=
  ∀ s : State,
    (s.schedule = [] ∨ ∃ (inp : SeqInputs) (rest : List Turn), s.schedule = .seq inp :: rest ∧
      (s.phase = .idle ∨ s.frameGo = true ∨ inp.frameGo = false)) →
    ∃ (i : Instr) (t : State), (fetch s).1 = .seq (phaseCode s.phase) ∧
      decode s.cfg (.seq (phaseCode s.phase)) = .ok i ∧ exec i (fetch s).2 = .next t ∧ step s = .next t

/-- Decoding the record of a well-formed operation gives the operation back, for every operation and every operand.
The packings are the spec's own (D5, D16, D22) and, for the operands of outside moves, the model's (assumption
log 9). -/
def Obligations.DecodeEncodeRoundTrip : Prop :=
  ∀ (c : Cfg) (i : Instr), c.wf = true → i.wellFormed c = true → decode c (encode c i) = .ok i

/-- R118: every transaction decodes to an operation whose operands exist, the operation completes in every state,
and a read has a result. -/
def Obligations.EveryTransactionCompletes : Prop :=
  ∀ (c : Cfg) (t : BitVec 49), c.wf = true →
    ∃ i : Instr, decode c (.bus t) = .ok i ∧ i.wellFormed c = true ∧
      ∀ s : State, ∃ u : State, exec i s = .next u ∧ (busRw t = false → ∃ v : Word, u.rdata = some v)

/-- Exactly one handler decides: stage 1 selects the handler that claims the transaction, and the default where
none does; two handlers never claim the same transaction (R7 a, R71, R100; the map's shape is D3). -/
def Obligations.ExactlyOneHandlerAnswers : Prop :=
  ∀ (c : Cfg) (a : Nat) (rw : Bool), c.wf = true →
    (∀ h : Handler, c.select a rw = some h ↔ c.claims h a rw = true) ∧
    (c.select a rw = none ↔ ∀ h : Handler, c.claims h a rw = false)

/-- The codes that no row of the table has are rejected as reserved, and every other code decodes: select codes (R73,
R88), phase codes (R86), move codes (R87), these with the operand their move takes (the kinds are the model's,
assumption log 9); a move code that has a row is never rejected as reserved.  The codes are the spec's own (D5, D22). -/
def Obligations.ReservedCodesRejected : Prop :=
  (∀ o : BitVec 7, decodeOpsel o = none ↔
    (0x0C#7 ≤ o ∧ o ≤ 0x0F#7) ∨ (0x1C#7 ≤ o ∧ o ≤ 0x1F#7) ∨ (0x28#7 ≤ o ∧ o ≤ 0x3F#7) ∨
    (0x50#7 ≤ o ∧ o ≤ 0x53#7) ∨ (0x60#7 ≤ o ∧ o ≤ 0x67#7) ∨ (0x70#7 ≤ o ∧ o ≤ 0x7F#7)) ∧
  (∀ p : BitVec 4, (decodeSeq p = .error .invalidPhase ↔ 13#4 ≤ p) ∧
    ((∃ i : Instr, decodeSeq p = .ok i) ↔ p < 13#4)) ∧
  (∀ (code : BitVec 4) (arg : EnvArg), (decodeEnv code arg = .error .invalidMove ↔ 11#4 ≤ code) ∧
    (code < 11#4 → decodeEnv code arg = .error .wrongOperand ∨ ∃ i : Instr, decodeEnv code arg = .ok i)) ∧
  (∀ p : PowerOn, decodeEnv 0 (.powerOn p) = .ok (.hPoweron p)) ∧
  decodeEnv 1 .none = .ok .hResetreq ∧
  (∀ b : Bool, decodeEnv 2 (.bit b) = .ok (.hBind b)) ∧
  decodeEnv 3 .none = .ok .hDirty ∧
  (∀ (i0 i1 i2 : Word) (d0 d1 : Byte), decodeEnv 4 (.inputs i0 i1 i2 d0 d1) = .ok (.hInput i0 i1 i2 d0 d1)) ∧
  decodeEnv 5 .none = .ok .hSave ∧
  (∀ img : SavedImage, decodeEnv 6 (.image img) = .ok (.hRestore img)) ∧
  (∀ m : DmaMove, decodeEnv 7 (.dma m) = .ok (.eDma m)) ∧
  (∀ level : Bool, decodeEnv 8 (.bit level) = .ok (.eFmirq level)) ∧
  (∀ d : BitVec 64, decodeEnv 9 (.desc d) = .ok (.scanline (decodeDesc d))) ∧
  decodeEnv 10 .none = .ok .protRst

/-- Transactions and a descriptor written out in 95_test_vectors.md 2.1, 2.5 under REFCFG decode to the operations
they stand for there, and a phase code and a move code of R86, R87 to theirs. -/
def Obligations.TransactionsOfTheSpecDecode : Prop :=
  decode refCfg (.bus 0x1003FFFFF1234) = .ok (.vramWr 0x3FFFF 0x1234) ∧
  decode refCfg (.bus 0x10141FFFF1234) = .ok (.nvramWr 0x1FFF 0x1234) ∧
  decode refCfg (.bus 0x0014800000000) = .ok (.dfltRd 0x01480000) ∧
  decode refCfg (.bus 0x00160002F0000) = .ok .inputRd2 ∧
  decode refCfg (.bus 0x10187FFFF1234) = .ok (.palWr 0x7FFF 0x1234) ∧
  decode refCfg (.bus 0x101F0001F1234) = .ok (.ctrlWr 0x1234) ∧
  decode refCfg (.bus 0x002FFFFFF0000) = .ok (.gromRd 0xFFFFF) ∧
  decode refCfg (.bus 0x101D810701234) = .ok .wdogWr ∧
  decode refCfg (.env 9 (.desc 0x000500FF000A0010)) = .ok (.scanline ⟨5, 0xFF, 10, 16⟩) ∧
  decode refCfg (.seq 9) = .ok .ftFlush ∧
  decode refCfg (.env 10 .none) = .ok .protRst

/-- Two addresses that differ only in the low `ADDR_SHIFT` bits are the same access: the two operations
have the same effect on every state, the content of the log apart (R56, which rests on the spec's choice D2). -/
def Obligations.LowAddressBitsIgnored : Prop :=
  ∀ (c : Cfg) (rw : Bool) (a b : Addr) (v : Word), c.wf = true →
    a.toNat >>> c.addrShift = b.toNat >>> c.addrShift →
      ∃ i j : Instr, decode c (.bus (busRecord rw a v)) = .ok i ∧ decode c (.bus (busRecord rw b v)) = .ok j ∧
        ∀ s : State, ∃ (t : State) (l : List LogEntry),
          exec i s = .next t ∧ exec j s = .next { t with log := l }

/-! ### The dispatch handlers -/

/-- R101: a read of an address that no handler claims for reads is DFLT.RD; it answers all ones and changes
nothing else, the content of the log apart. -/
def Obligations.DefaultReadAnswersAllOnes : Prop :=
  (∀ (c : Cfg) (a : Addr) (v : Word), c.select a.toNat false = none →
    decode c (.bus (busRecord false a v)) = .ok (.dfltRd a)) ∧
  (∀ (a : Addr) (s : State), ∃ l : List LogEntry,
    exec (.dfltRd a) s = .next { s with rdata := some 0xFFFF, log := l })

/-- R102: a write to an address that no handler claims for writes is DFLT.WR; it changes nothing, the content of
the log apart. -/
def Obligations.DefaultWriteDiscarded : Prop :=
  (∀ (c : Cfg) (a : Addr) (v : Word), c.select a.toNat true = none →
    decode c (.bus (busRecord true a v)) = .ok (.dfltWr a v)) ∧
  (∀ (a : Addr) (v : Word) (s : State), ∃ l : List LogEntry,
    exec (.dfltWr a v) s = .next { s with log := l })

/-- NVRAM.RD answers bytes `2k + 1` and `2k` and changes nothing else, whatever `NVWE` is (R104; the pairing is the
spec's choice D9, R54). -/
def Obligations.NvramReadPairsBytes : Prop :=
  ∀ (k : Nat) (s : State),
    exec (.nvramRd k) s = .next { s with rdata := some (s.readNvram (2 * k + 1) ++ s.readNvram (2 * k)) }

/-- NVRAM.WR stores its two bytes and nothing else while `NVWE` is set, and does nothing while it is clear (R105;
the pairing is the spec's choice D9, R54).  So a write is read back at the same offset exactly when the flag
was set. -/
def Obligations.NvramWriteGated : Prop :=
  ∀ (k : Nat) (v : Word) (s : State),
    (s.nvwe = false → exec (.nvramWr k v) s = .next s) ∧
    (s.nvwe = true → ∃ m : Memory 8,
      exec (.nvramWr k v) s = .next { s with nvram := m } ∧
      (∀ i : Nat, State.readNvram { s with nvram := m } i =
        if i = 2 * k then v.extractLsb' 0 8 else if i = 2 * k + 1 then v.extractLsb' 8 8 else s.readNvram i) ∧
      exec (.nvramRd k) { s with nvram := m } = .next { s with nvram := m, rdata := some v })

/-- R106: a write anywhere in the strike range, with any data, is NVWE.WR, which sets the flag and nothing else; a
read of the range is DFLT.RD, which does not set it. -/
def Obligations.StrikeArmsTheWriteEnable : Prop :=
  (∀ s : State, exec .nvweWr s = .next { s with nvwe := true }) ∧
  (∀ (c : Cfg) (a : Addr) (v : Word), c.wf = true → c.nvweRange.lo ≤ a.toNat → a.toNat ≤ c.nvweRange.hi →
    decode c (.bus (busRecord true a v)) = .ok .nvweWr ∧
    decode c (.bus (busRecord false a v)) = .ok (.dfltRd a))

/-- INPUT.RD answers the complemented snapshot of its port, DIP.RD the DIP word as latched; nothing else changes
(R108, R109; the ports and the snapshot are the spec's choice D12). -/
def Obligations.InputPortsAnswerTheSnapshot : Prop :=
  ∀ s : State,
    exec .inputRd0 s = .next { s with rdata := some (0xFFFF - s.insnap0) } ∧
    exec .inputRd1 s = .next { s with rdata := some (0xFFFF - s.insnap1) } ∧
    exec .inputRd2 s = .next { s with rdata := some (0xFFFF - s.insnap2) } ∧
    exec .dipRd s = .next { s with rdata := some s.dipsnap }

/-- PAL.RD answers the raw entry, all 16 bits, and changes nothing else (R111; D19). -/
def Obligations.PaletteReadReturnsRawEntry : Prop :=
  ∀ (i : Nat) (s : State), exec (.palRd i) s = .next { s with rdata := some (s.readPalram i) }

/-- A write of the palette window is PAL.WR of the entry whose index is the masked word address; it writes the raw entry
and its cached host colour, and nothing else (R110; the entry's width and index are the spec's choice D19). -/
def Obligations.PaletteWriteUpdatesBothCells : Prop :=
  (∀ (i : Nat) (v : Word) (s : State), ∃ (m : Memory 16) (n : Memory 24),
    exec (.palWr i v) s = .next { s with palram := m, palcache := n } ∧
    (∀ j : Nat, State.readPalram { s with palram := m, palcache := n } j =
      if j = i then v else s.readPalram j) ∧
    (∀ j : Nat, State.readPalcache { s with palram := m, palcache := n } j =
      if j = i then s.cfg.colorOf v else s.readPalcache j)) ∧
  (∀ (c : Cfg) (a : Addr) (v : Word), c.wf = true → c.palRange.lo ≤ a.toNat → a.toNat ≤ c.palRange.hi →
    decode c (.bus (busRecord true a v)) = .ok (.palWr ((a.toNat >>> c.addrShift) &&& c.palIndexMask) v))

/-- CTRL.WR writes `CTRLVAL`, `VBANK` and slot 0 of the bank offsets from one word, and nothing else (R112; the bits
and their sense are the spec's choice D10). -/
def Obligations.ControlWriteSetsBanks : Prop :=
  ∀ (v : Word) (s : State),
    exec (.ctrlWr v) s = .next { s with
      ctrlval := v
      vbank := v.getLsbD s.cfg.ctrlVbankBit
      gbankOff0 := if v.getLsbD s.cfg.ctrlGbankBit = true ∧ s.cfg.gromLarge = true then s.cfg.gromHighOffset else 0 }

/-- GROM.RD answers bytes `N + 1` and `N` of the bank that slot 0 selects, `N = 2k`, and changes nothing else (R113;
the pairing is the spec's choice D9, R55). -/
def Obligations.GromReadAppliesSlotZero : Prop :=
  ∀ (k : Nat) (s : State),
    exec (.gromRd k) s = .next { s with
      rdata := some (s.readGrom (s.gbankOff0 + 2 * k + 1) ++ s.readGrom (s.gbankOff0 + 2 * k)) }

/-- R114, which the spec derives: after a control write the low byte of GROM.RD at byte offset `N = 2k` is byte `N`
of the low image, or byte `N` of the high image if the bank bit was set and the large image is enabled. -/
def Obligations.BankBitSelectsTheImage : Prop :=
  ∀ (v : Word) (k : Nat) (s : State), ∃ (t u : State) (d : Word),
    exec (.ctrlWr v) s = .next t ∧ exec (.gromRd k) t = .next u ∧ u.rdata = some d ∧
    (v.getLsbD s.cfg.ctrlGbankBit = false ∨ s.cfg.gromLarge = false →
      d.extractLsb' 0 8 = s.readGrom (2 * k)) ∧
    (v.getLsbD s.cfg.ctrlGbankBit = true → s.cfg.gromLarge = true →
      d.extractLsb' 0 8 = s.readGrom (s.cfg.gromHighOffset + 2 * k))

/-- SNDST.RD: ready, and one poll fewer, while the counter is not 0; not ready at 0; nothing else changes but the
log (R115; the counter is the spec's choice D13). -/
def Obligations.SoundPollAnswers : Prop :=
  ∀ (a : Addr) (s : State), ∃ l : List LogEntry,
    (0 < s.sndack → exec (.sndstRd a) s =
      .next { s with rdata := some s.cfg.sndReady, sndack := s.sndack - 1, log := l }) ∧
    (s.sndack = 0 → exec (.sndstRd a) s = .next { s with rdata := some s.cfg.sndNotready, log := l })

/-- SNDLATCH.WR presents its word to the Sound Bridge and arms the counter to its full count; nothing else changes
but the log (R116; D13). -/
def Obligations.SoundLatchArmsTheCounter : Prop :=
  ∀ (a : Addr) (v : Word) (s : State), ∃ l : List LogEntry,
    exec (.sndlatchWr a v) s = .next { s with
      events := s.events ++ [.soundLatch v], sndack := s.cfg.sndackPolls, log := l }

/-- After arming, exactly `SNDACK_POLLS` polls answer ready, and every later one not ready (R115; D13). -/
def Obligations.ReadyPollsAreCounted : Prop :=
  ∀ (a b : Addr) (v : Word) (n : Nat) (s t : State), exec (.sndlatchWr a v) s = .next t →
    ∃ u w : State, repeatExec (.sndstRd b) n t = .next u ∧ exec (.sndstRd b) u = .next w ∧
      w.rdata = some (if n < s.cfg.sndackPolls then s.cfg.sndReady else s.cfg.sndNotready)

/-- R117: WDOG.WR changes nothing; a read of the watchdog's range that no other handler claims is DFLT.RD. -/
def Obligations.WatchdogWriteDoesNothing : Prop :=
  (∀ s : State, exec .wdogWr s = .next s) ∧
  (∀ (c : Cfg) (a : Addr) (v : Word), c.wf = true → c.wdogRange.lo ≤ a.toNat → a.toNat ≤ c.wdogRange.hi →
    decode c (.bus (busRecord true a v)) = .ok .wdogWr ∧
    (c.select a.toNat false = none → decode c (.bus (busRecord false a v)) = .ok (.dfltRd a)))

/-! ### The protection coprocessor -/

/-- R131: a read anywhere in the protection range is PROT.RD; it answers the table byte at the cursor, shifted and cut to
16 bits, and advances the cursor cyclically; nothing else changes. -/
def Obligations.ProtectionReadAdvances : Prop :=
  (∀ (s : State) (b : Byte), s.cfg.protTable[s.cursor]? = some b →
    exec .protRd s = .next { s with
      rdata := some (BitVec.ofNat 16 (b.toNat * 2 ^ s.cfg.protRdShift))
      cursor := (s.cursor + 1) % s.cfg.protTable.length }) ∧
  (∀ (c : Cfg) (a : Addr) (v : Word), c.wf = true → c.protRange.lo ≤ a.toNat → a.toNat ≤ c.protRange.hi →
    decode c (.bus (busRecord false a v)) = .ok .protRd)

/-- R132: a write anywhere in the protection range is PROT.WR; it puts the cursor on the first table entry equal to the
key, or on 0 if there is none; nothing else changes. -/
def Obligations.ProtectionWriteFindsFirstMatch : Prop :=
  (∀ (v : Word) (s : State) (key : Nat), key = (v.toNat >>> s.cfg.protKeyLo) &&& (2 ^ s.cfg.protKeyW - 1) →
    ∃ n : Nat, exec (.protWr v) s = .next { s with cursor := n } ∧
      ((∃ b ∈ s.cfg.protTable, b.toNat = key) →
        (∃ b : Byte, s.cfg.protTable[n]? = some b ∧ b.toNat = key) ∧
        ∀ m < n, ∀ b : Byte, s.cfg.protTable[m]? = some b → b.toNat ≠ key) ∧
      ((∀ b ∈ s.cfg.protTable, b.toNat ≠ key) → n = 0)) ∧
  (∀ (c : Cfg) (a : Addr) (v : Word), c.wf = true → c.protRange.lo ≤ a.toNat → a.toNat ≤ c.protRange.hi →
    decode c (.bus (busRecord true a v)) = .ok (.protWr v))

/-- R133: PROT.RST clears the cursor and nothing else; power-on and the soft reset clear it too, a restore does not
write it. -/
def Obligations.ProtectionResetClearsCursor : Prop :=
  (∀ s : State, exec .protRst s = .next { s with cursor := 0 }) ∧
  (∀ (p : PowerOn) (s : State), p.cfg.wf = true → ∃ t : State, exec (.hPoweron p) s = .next t ∧ t.cursor = 0) ∧
  (∀ s : State, s.resetPending = true → ∃ t : State, exec .ftRstchk s = .next t ∧ t.cursor = 0) ∧
  (∀ (img : SavedImage) (s t : State), exec (.hRestore img) s = .next t → t.cursor = s.cursor)

/-- R134, which the spec derives: after `n` reads in a row the cursor has advanced by `n`, and the next read
answers the table entry there, cyclically. -/
def Obligations.ProtectionReadSequence : Prop :=
  ∀ (n : Nat) (s : State) (b : Byte), s.cursor < s.cfg.protTable.length →
    s.cfg.protTable[(s.cursor + n) % s.cfg.protTable.length]? = some b →
      ∃ t u : State, repeatExec .protRd n s = .next t ∧
        t.cursor = (s.cursor + n) % s.cfg.protTable.length ∧
        exec .protRd t = .next u ∧ u.rdata = some (BitVec.ofNat 16 (b.toNat * 2 ^ s.cfg.protRdShift))

/-- R135, which the spec derives: the read after a challenge answers the first entry equal to the key, or entry 0
if there is none. -/
def Obligations.ProtectionWriteThenRead : Prop :=
  ∀ (v : Word) (s : State) (m : Nat) (b : Byte), s.cfg.protTable[m]? = some b →
    ((b.toNat = (v.toNat >>> s.cfg.protKeyLo) % 2 ^ s.cfg.protKeyW ∧
        ∀ j < m, ∀ b' : Byte, s.cfg.protTable[j]? = some b' →
          b'.toNat ≠ (v.toNat >>> s.cfg.protKeyLo) % 2 ^ s.cfg.protKeyW) ∨
      (m = 0 ∧ ∀ b' ∈ s.cfg.protTable, b'.toNat ≠ (v.toNat >>> s.cfg.protKeyLo) % 2 ^ s.cfg.protKeyW)) →
    ∃ t u : State, exec (.protWr v) s = .next t ∧ exec .protRd t = .next u ∧
      u.rdata = some (BitVec.ofNat 16 (b.toNat * 2 ^ s.cfg.protRdShift))

/-- R137, which the spec derives: no operation but PROT.RD, PROT.WR, PROT.RST, the reset check and power-on writes the
cursor, and none but PROT.RD reads it: performed with another cursor, an operation leaves the same state, the cursor
apart. -/
def Obligations.CursorIsolated : Prop :=
  (∀ (i : Instr) (s t : State), exec i s = .next t →
    i ≠ .protRd → (∀ v : Word, i ≠ .protWr v) → i ≠ .protRst → i ≠ .ftRstchk → (∀ p : PowerOn, i ≠ .hPoweron p) →
      t.cursor = s.cursor) ∧
  (∀ (i : Instr) (n : Nat) (s t : State), exec i s = .next t → i ≠ .protRd →
    ∃ m : Nat, exec i { s with cursor := n } = .next { t with cursor := m })

/-! ### Video -/

/-- VRAM.RD answers the selected lanes of words `2k` and `2k + 1` (modulo `VRAM_WORDS`) and changes nothing else
(R142; lanes and pairing are the spec's choice D6, D7). -/
def Obligations.VideoReadSelectsLanes : Prop :=
  ∀ (k : Nat) (s : State), exec (.vramRd k) s = .next { s with
    rdata := some (
      if s.vbank = true then
        (s.readVram ((2 * k + 1) % s.cfg.vramWords)).extractLsb' 0 8 ++
          (s.readVram ((2 * k) % s.cfg.vramWords)).extractLsb' 0 8
      else
        (s.readVram ((2 * k + 1) % s.cfg.vramWords)).extractLsb' 8 8 ++
          (s.readVram ((2 * k) % s.cfg.vramWords)).extractLsb' 8 8) }

/-- VRAM.WR writes one lane of words `2k` and `2k + 1` and stamps the other from the latch when `VBANK = 1`, keeps it
when `VBANK = 0`; no other word and nothing else changes (R143; lanes, pairing and stamp are the spec's choice D6,
D7, D8). -/
def Obligations.VideoWriteStampsOrKeeps : Prop :=
  ∀ (k : Nat) (v : Word) (s : State), 2 ≤ s.cfg.vramWords → ∃ m : Memory 16,
    exec (.vramWr k v) s = .next { s with vram := m } ∧
    ∀ i : Nat, State.readVram { s with vram := m } i =
      if i = (2 * k) % s.cfg.vramWords then
        (if s.vbank = true then s.pallatch.extractLsb' 0 8 ++ v.extractLsb' 0 8
          else v.extractLsb' 0 8 ++ (s.readVram i).extractLsb' 0 8)
      else if i = (2 * k + 1) % s.cfg.vramWords then
        (if s.vbank = true then s.pallatch.extractLsb' 0 8 ++ v.extractLsb' 8 8
          else v.extractLsb' 8 8 ++ (s.readVram i).extractLsb' 0 8)
      else s.readVram i

/-- R144, which the spec derives: a write with `VBANK = 0` changes no low lane, and what it wrote is read back
through `VBANK = 0`; a write with `VBANK = 1` is read back through `VBANK = 1` as written and through `VBANK = 0`
as the latch byte in both halves. -/
def Obligations.LaneLaw : Prop :=
  ∀ (k : Nat) (v : Word) (s : State), 2 ≤ s.cfg.vramWords → ∃ t : State, exec (.vramWr k v) s = .next t ∧
    (∃ u : State, exec (.vramRd k) t = .next u ∧ u.rdata = some v) ∧
    (s.vbank = false → ∀ i : Nat, (t.readVram i).extractLsb' 0 8 = (s.readVram i).extractLsb' 0 8) ∧
    (s.vbank = true → ∃ u : State, exec (.vramRd k) { t with vbank := false } = .next u ∧
      u.rdata = some (s.pallatch.extractLsb' 0 8 ++ s.pallatch.extractLsb' 0 8))

/-- E.DMA writes whole video words, the last write of a word standing, then sets the latch if it has one, and changes
nothing else (R145; the agent's liberties are the spec's choice D25, a move's form the model's, assumption log
9). -/
def Obligations.DmaWritesWordsAndLatch : Prop :=
  ∀ (m : DmaMove) (s : State), ∃ vm : Memory 16,
    exec (.eDma m) s = .next { s with vram := vm, pallatch := m.latch.getD s.pallatch } ∧
    ∀ i : Nat, State.readVram { s with vram := vm, pallatch := m.latch.getD s.pallatch } i =
      ((m.writes.reverse.find? fun w => w.1 == i).map Prod.snd).getD (s.readVram i)

/-- SCANLINE with a surface bound and a visible row copies `min(SCREEN_W, rightBlank − leftBlank)` masked video words
of the row, columns wrapping at 512, to the row buffer, and changes nothing else; otherwise it changes nothing
(R146, R148; rows, units and places are the spec's choice D14, D15, D16, D17). -/
def Obligations.ScanlineCopiesTheRow : Prop :=
  ∀ (d : Desc) (s : State), ∃ m : Memory 15,
    exec (.scanline d) s = .next { s with pixbuf := m } ∧
    ∀ y j : Nat, j < s.cfg.screenW → State.readPixbuf { s with pixbuf := m } y j =
      if s.surfaceBound = true ∧ d.rowAddress.toNat < s.cfg.screenH ∧ y = d.rowAddress.toNat ∧
          j < d.rightBlank.toNat - d.leftBlank.toNat then
        (s.readVram (((d.rowAddress.toNat * 512) &&& s.cfg.rowBaseMask) +
          (d.colAddress.toNat * 2 ^ s.cfg.colScaleLog2 + j) % 512)).setWidth 15
      else s.readPixbuf y j

/-- The row's place is a multiple of 512 inside video memory, and every word the line fetches lies in the row's 512
words (R146 b, R6). -/
def Obligations.ScanlineStaysInItsRow : Prop :=
  ∀ (c : Cfg) (d : Desc) (col : Nat), c.wf = true →
    rowBase c d % 512 = 0 ∧ rowBase c d ≤ columnWord (rowBase c d) col ∧
    columnWord (rowBase c d) col < rowBase c d + 512 ∧ columnWord (rowBase c d) col < c.vramWords

/-- FT.PALRC recalculates every cached colour and clears the dirty flag when a surface is bound and the flag set, and
otherwise only goes on (R183, R150; the phases are the spec's choice D22). -/
def Obligations.RecalculationWhenBoundAndDirty : Prop :=
  ∀ s : State,
    (s.surfaceBound = true → s.paldirty = true → ∃ m : Memory 24,
      exec .ftPalrc s = .next { s with palcache := m, paldirty := false, phase := .blit } ∧
      ∀ i : Nat, i < s.cfg.palEntries →
        State.readPalcache { s with palcache := m, paldirty := false, phase := .blit } i =
          s.cfg.colorOf (s.readPalram i)) ∧
    (s.surfaceBound = false ∨ s.paldirty = false → exec .ftPalrc s = .next { s with phase := .blit })

/-- R153, which the spec derives: the cached colour that PAL.WR leaves for a raw value is the one that a
recalculation leaves for it. -/
def Obligations.PaletteWriteAgreesWithRecalculation : Prop :=
  ∀ (i : Nat) (v : Word) (s : State), i < s.cfg.palEntries → ∃ t u : State,
    exec (.palWr i v) s = .next t ∧
    exec .ftPalrc { t with surfaceBound := true, paldirty := true } = .next u ∧
    u.readPalram i = v ∧ u.readPalcache i = t.readPalcache i

/-- Between two writes of an entry's cells the palette agreement is never lost: every operation but a restore and a
power-on keeps it for every entry, and PAL.WR establishes it for its own (R34, R232). -/
def Obligations.PaletteAgreementKept : Prop :=
  (∀ (i : Instr) (n : Nat) (s t : State), exec i s = .next t → (∀ img : SavedImage, i ≠ .hRestore img) →
    (∀ p : PowerOn, i ≠ .hPoweron p) → n < s.cfg.palEntries → s.paletteAgrees n → t.paletteAgrees n) ∧
  (∀ (n : Nat) (v : Word) (s : State), ∃ t : State, exec (.palWr n v) s = .next t ∧ t.paletteAgrees n)

/-- FT.BLIT with a surface bound shows every row-buffer value through the palette cache and changes nothing else but
the phase; with none bound it only goes on (R184, R152; the lookup at blit is the spec's choice D17). -/
def Obligations.BlitWhenBound : Prop :=
  ∀ s : State,
    (s.surfaceBound = true → ∃ m : Memory 24,
      exec .ftBlit s = .next { s with hostsurf := m, phase := .done } ∧
      ∀ y x : Nat, y < s.cfg.screenH → x < s.cfg.screenW →
        State.readHostsurf { s with hostsurf := m, phase := .done } y x =
          s.readPalcache ((s.readPixbuf y x).toNat &&& s.cfg.palIndexMask)) ∧
    (s.surfaceBound = false → exec .ftBlit s = .next { s with phase := .done })

/-- The pixel path end to end, which the spec derives: the colour shown for a pixel of a drawn line is the host colour
of the palette entry that the pixel's video word names, high lane's seven bits and low lane, as of blit time, where
that entry's cached colour agrees with it (R154, R34; rows, units and the lookup at blit are the spec's choice D14 to
D17). -/
def Obligations.PixelPathEndToEnd : Prop :=
  ∀ (d : Desc) (s : State) (j i : Nat), s.surfaceBound = true → d.rowAddress.toNat < s.cfg.screenH →
    j < s.cfg.screenW → j < d.rightBlank.toNat - d.leftBlank.toNat →
    i = (((s.readVram (((d.rowAddress.toNat * 512) &&& s.cfg.rowBaseMask) +
      (d.colAddress.toNat * 2 ^ s.cfg.colScaleLog2 + j) % 512)).toNat % 0x8000) &&& s.cfg.palIndexMask) →
    s.paletteAgrees i →
    ∃ t u : State, exec (.scanline d) s = .next t ∧ exec .ftBlit t = .next u ∧
      u.readHostsurf d.rowAddress.toNat j = s.cfg.colorOf (s.readPalram i)

/-! ### The frame sequencer -/

/-- FT.START leaves `IDLE` when `FRAME_GO` is 1 and stays otherwise (R170; the phases are the spec's choice D22). -/
def Obligations.FrameStartWaitsForGo : Prop :=
  ∀ s : State,
    (s.frameGo = true → exec .ftStart s = .next { s with phase := .rstchk }) ∧
    (s.frameGo = false → exec .ftStart s = .next s)

/-- FT.RSTCHK with a request pending resets both processors, clears the cursor, the sound counter and the request, and
changes no other cell but `PALLATCH`, which is unspecified afterwards (R46, R172, R206; that the list is complete
is the spec's choice D24; the fresh draw is the model's, assumption log 14).  Without a request it only goes on. -/
def Obligations.ResetCheckPerformsSoftReset : Prop :=
  ∀ s : State,
    (s.resetPending = true → ∃ (latch : Word) (n : Nat), exec .ftRstchk s = .next { s with
      cursor := 0, sndack := 0, resetPending := false, phase := .insnap
      events := s.events ++ [.procReset .p0, .procReset .p1], pallatch := latch, draw := n }) ∧
    (s.resetPending = false → exec .ftRstchk s = .next { s with phase := .insnap })

/-- FT.INSNAP latches the raw inputs (R173; the packing is the spec's choice D12). -/
def Obligations.InputSnapshotLatched : Prop :=
  ∀ s : State, exec .ftInsnap s = .next { s with
    insnap0 := s.inRaw0, insnap1 := s.inRaw1, insnap2 := s.inRaw2
    dipsnap := s.dipRaw1 ++ s.dipRaw0, phase := .clracc }

/-- FT.CLRACC clears the accumulators and the line counter (R174; D20, D22). -/
def Obligations.AccumulatorsCleared : Prop :=
  ∀ s : State, exec .ftClracc s = .next { s with
    cycDone0 := 0, cycDone1 := 0, audDone := 0, slice := 0, phase := .run0 }

/-- FT.RUN0 and FT.RUN1.  With no grant open and no cycles wanting, the step only goes on.  With cycles wanting it makes
the grant of the difference to the target, and with a grant open it goes on with that one: once the processor reports
its return, the cycles it ran, the request and at most `OVERSHOOT_MAX` more, are counted, the grant is closed and the
step goes on; before, it stays, with the cycles executed so far noted.  `STALL[p]` is 0 exactly while the grant to `p` is
open and fewer cycles than its request are executed, which is only in its run step and below its target; the two
processors are never released together (R175, R176, R177, R187; the corners of a grant are the spec's choice D20, the
turns of a run step the model's, assumption log 7). -/
def Obligations.RunStepsGrantAndReturn : Prop :=
  (∀ (p : Proc) (i : Instr) (after : Phase) (s : State),
    (p = .p0 ∧ i = .ftRun0 ∧ after = .run1) ∨ (p = .p1 ∧ i = .ftRun1 ∧ after = .scan) →
    (s.grant = none → s.cfg.target p s.slice ≤ s.cycDone p → exec i s = .next { s with phase := after }) ∧
    (∀ (g : Grant) (events : List Event),
      (s.grant = none ∧ 0 < g.cycles ∧ s.cycDone p + g.cycles = s.cfg.target p s.slice ∧
          g.proc = p ∧ g.ran = 0 ∧ events = s.events ++ [.run p g.cycles]) ∨
        (s.grant = some g ∧ events = s.events) →
      (s.returned = true → ∃ ran : Nat, g.cycles ≤ ran ∧ ran ≤ g.cycles + s.cfg.overshootMax p ∧
        (g.ran ≤ s.ran → g.cycles ≤ s.ran → s.ran ≤ g.cycles + s.cfg.overshootMax p → ran = s.ran) ∧
        exec i s = .next { s.setCycDone p (s.cycDone p + ran) with
          grant := none, phase := after, events := events }) ∧
      (s.returned = false → ∃ ran : Nat, ran ≤ g.cycles + s.cfg.overshootMax p ∧
        (g.ran ≤ s.ran → s.ran ≤ g.cycles + s.cfg.overshootMax p → ran = s.ran) ∧
        exec i s = .next { s with grant := some { g with ran := ran }, events := events }))) ∧
  (∀ (p : Proc) (s : State), stall p s = false ↔ ∃ g : Grant, s.grant = some g ∧ g.proc = p ∧ g.ran < g.cycles) ∧
  (∀ s : State, ¬ (stall .p0 s = false ∧ stall .p1 s = false)) ∧
  (∀ (p : Proc) (s : State), s.Inv → stall p s = false → s.phase = runPhase p ∧
    ∃ g : Grant, s.grant = some g ∧ s.cycDone p + g.ran < s.cfg.target p s.slice)

/-- FT.SCAN performs SCANLINE with the descriptor on the display generator's lines and goes on to `AUDIO` (R178; the
phases are the spec's choice D22). -/
def Obligations.ScanStepPerformsTheLine : Prop :=
  ∀ s : State, ∃ t : State,
    exec (.scanline ⟨s.desc.extractLsb' 48 16, s.desc.extractLsb' 32 16, s.desc.extractLsb' 16 16,
      s.desc.extractLsb' 0 16⟩) s = .next t ∧
    exec .ftScan s = .next { t with phase := .audio }

/-- FT.AUDIO renders the equal share of samples, if that is not 0, and counts it (R179; the share is the spec's choice
D21). -/
def Obligations.AudioSliceRendersTheShare : Prop :=
  ∀ s : State, exec .ftAudio s = .next { s with
    events := s.events ++
      (if 0 < s.cfg.frameSamples / s.cfg.sliceCount then [.audioRender (s.cfg.frameSamples / s.cfg.sliceCount)] else [])
    audDone := s.audDone + s.cfg.frameSamples / s.cfg.sliceCount, phase := .next }

/-- FT.NEXT counts the line and goes on to the next slice, or after the last one to the flush (R180; the line counter and
the phases are the spec's choice D22). -/
def Obligations.LineCounterAdvances : Prop :=
  ∀ s : State,
    (s.slice + 1 < s.cfg.sliceCount → exec .ftNext s = .next { s with slice := s.slice + 1, phase := .run0 }) ∧
    (s.cfg.sliceCount ≤ s.slice + 1 → exec .ftNext s = .next { s with slice := s.slice + 1, phase := .flush })

/-- FT.FLUSH renders what is left of the frame's samples, if anything is, and goes on (R182; the phases are the spec's
choice D22, the share of a slice D21). -/
def Obligations.FlushFillsTheBuffer : Prop :=
  ∀ s : State,
    (s.audDone < s.cfg.frameSamples → exec .ftFlush s = .next { s with
      events := s.events ++ [.audioRender (s.cfg.frameSamples - s.audDone)]
      audDone := s.cfg.frameSamples, phase := .palrc }) ∧
    (s.cfg.frameSamples ≤ s.audDone → exec .ftFlush s = .next { s with
      audDone := s.cfg.frameSamples, phase := .palrc })

/-- FT.DONE counts the frame modulo 2^32 and goes on to `IDLE` (R185; the counter is the spec's own, D22). -/
def Obligations.FrameDoneCounts : Prop :=
  ∀ s : State, ∃ n : BitVec 32, n.toNat = (s.framecnt.toNat + 1) % 2 ^ 32 ∧
    exec .ftDone s = .next { s with framecnt := n, phase := .idle }

/-! ### Outside moves -/

/-- H.RESETREQ, H.BIND, H.DIRTY and H.INPUT set what they name and nothing else, and each E.FMIRQ turn is relayed without
any state (R202, R204, R208; the spec's choice D32, D33, D34).  R204 emits when the input changes; that every E.FMIRQ
turn is such a change is the model's reading (assumption log 22). -/
def Obligations.OutsideMovesSetInputs : Prop :=
  ∀ s : State,
    exec .hResetreq s = .next { s with resetPending := true } ∧
    (∀ b : Bool, exec (.hBind b) s = .next { s with surfaceBound := b }) ∧
    exec .hDirty s = .next { s with paldirty := true } ∧
    (∀ (i0 i1 i2 : Word) (d0 d1 : Byte), exec (.hInput i0 i1 i2 d0 d1) s = .next { s with
      inRaw0 := i0, inRaw1 := i1, inRaw2 := i2, dipRaw0 := d0, dipRaw1 := d1 }) ∧
    (∀ level : Bool, exec (.eFmirq level) s = .next { s with events := s.events ++ [.firq level] })

/-- H.SAVE changes no cell and returns an image, in a state within the invariant one that H.RESTORE takes.  H.RESTORE of
an image of the same configuration, with no cell that a memory lacks, writes exactly the cells of the image; an image of
another configuration, or with a cell that a memory lacks, is refused (R209, R210, 93 U17; what is captured is the spec's
choice D28; that configurations are the same when all parameters of R6 have the same values, and that the size is
that of the listed cells, the model's, assumption log 13). -/
def Obligations.SaveThenRestore : Prop :=
  (∀ s : State, ∃ img : SavedImage, exec .hSave s = .next { s with saved := some img } ∧
    (s.Inv → ∀ u : State, Cfg.sameParameters s.cfg u.cfg →
      Instr.wellFormed u.cfg (.hRestore img) = true ∧
      exec (.hRestore img) u = .next { u with
        nvram := s.nvram, palram := s.palram, palcache := s.palcache, vram := s.vram
        vbank := s.vbank, gbankOff0 := s.gbankOff0, gbankOff1 := s.gbankOff1
        ctrlval := s.ctrlval, nvwe := s.nvwe, pallatch := s.pallatch }) ∧
    img.cfg = s.cfg) ∧
  (∀ (img : SavedImage) (u : State), Cfg.sameParameters img.cfg u.cfg →
    (∀ cell ∈ img.nvram.cells, cell.1 < u.cfg.nvramBytes) → (∀ cell ∈ img.palram.cells, cell.1 < u.cfg.palEntries) →
    (∀ cell ∈ img.palcache.cells, cell.1 < u.cfg.palEntries) → (∀ cell ∈ img.vram.cells, cell.1 < u.cfg.vramWords) →
      exec (.hRestore img) u = .next { u with
        nvram := img.nvram, palram := img.palram, palcache := img.palcache, vram := img.vram
        vbank := img.vbank, gbankOff0 := img.gbankOff0, gbankOff1 := img.gbankOff1
        ctrlval := img.ctrlval, nvwe := img.nvwe, pallatch := img.pallatch }) ∧
  (∀ (img : SavedImage) (u : State),
    ¬ Cfg.sameParameters img.cfg u.cfg ∨ (∃ cell ∈ img.nvram.cells, u.cfg.nvramBytes ≤ cell.1) ∨
      (∃ cell ∈ img.palram.cells, u.cfg.palEntries ≤ cell.1) ∨
      (∃ cell ∈ img.palcache.cells, u.cfg.palEntries ≤ cell.1) ∨
      (∃ cell ∈ img.vram.cells, u.cfg.vramWords ≤ cell.1) →
        exec (.hRestore img) u = .refused .imageMismatch)

/-- H.POWERON under a well-formed configuration leaves the power-on values of R46 in every scalar cell, the host's
images in `GROM` and `NVRAM`, every other memory with no cell written, and resets both processors; under any other
configuration it is refused (R221; the values but the cursor's are the spec's choice D23, the draw the model's,
assumption log 2; that an open grant is closed and that the events follow those of the run before, the model's,
assumption log 26). -/
def Obligations.PowerOnValues : Prop :=
  ∀ (p : PowerOn) (s : State),
    (p.cfg.wf = true → ∃ (t : State) (n : Nat), exec (.hPoweron p) s = .next t ∧
      t.cfg = p.cfg ∧ t.grom = p.grom ∧ (∀ image : Memory 8, p.nvram = some image → t.nvram = image) ∧
      t.cursor = 0 ∧ t.sndack = 0 ∧ t.vbank = false ∧ t.gbankOff0 = 0 ∧ t.gbankOff1 = 0 ∧ t.ctrlval = 0 ∧
      t.nvwe = false ∧ t.resetPending = false ∧ t.insnap0 = 0 ∧ t.insnap1 = 0 ∧ t.insnap2 = 0 ∧ t.dipsnap = 0 ∧
      t.phase = .idle ∧ t.slice = 0 ∧ t.cycDone0 = 0 ∧ t.cycDone1 = 0 ∧ t.audDone = 0 ∧ t.framecnt = 0 ∧
      t.grant = none ∧ t.vram = ⟨n, []⟩ ∧ t.palram = ⟨n, []⟩ ∧ t.palcache = ⟨n, []⟩ ∧ t.pixbuf = ⟨n, []⟩ ∧
      t.hostsurf = ⟨n, []⟩ ∧ (p.nvram = none → t.nvram = ⟨n, []⟩) ∧
      t.events = s.events ++ [.procReset .p0, .procReset .p1]) ∧
    (p.cfg.wf = false → exec (.hPoweron p) s = .refused .badConfiguration)

/-- A turn out of its place is refused: a bus transaction outside a grant to the primary processor, a host move outside
`IDLE`, raising `FRAME_GO` among them, a DMA move outside `RUN0`, a SCANLINE turn outside `SCAN`, a PROT.RST turn outside a
pending reset check (R60, R145, R208; refusing is the treatment of 93 U8 for the host's moves it lists, for the others
the model's, assumption log 5, 6, 8). -/
def Obligations.TurnsOutOfPlaceRefused : Prop :=
  ∀ s : State,
    (∀ (b : BitVec 49) (rest : List Turn), s.schedule = .bus b :: rest → s.cfg.wf = true →
      s.phase ≠ .run0 ∨ (∀ g : Grant, s.grant = some g → g.proc ≠ .p0) → step s = .refused .outOfOrder) ∧
    (∀ (code : BitVec 4) (arg : EnvArg) (rest : List Turn) (i : Instr), s.schedule = .env code arg :: rest →
      decode s.cfg (.env code arg) = .ok i → i.wellFormed s.cfg = true →
      ((i = .hResetreq ∨ (∃ b : Bool, i = .hBind b) ∨ i = .hDirty ∨
          (∃ (i0 i1 i2 : Word) (d0 d1 : Byte), i = .hInput i0 i1 i2 d0 d1) ∨ i = .hSave ∨
          ∃ img : SavedImage, i = .hRestore img) →
        s.phase ≠ .idle → step s = .refused .outOfOrder) ∧
      ((∃ m : DmaMove, i = .eDma m) → s.phase ≠ .run0 → step s = .refused .outOfOrder) ∧
      ((∃ d : Desc, i = .scanline d) → s.phase ≠ .scan → step s = .refused .outOfOrder) ∧
      (i = .protRst → s.phase ≠ .rstchk ∨ s.resetPending = false → step s = .refused .outOfOrder)) ∧
    (∀ (inp : SeqInputs) (rest : List Turn), s.schedule = .seq inp :: rest → inp.frameGo = true →
      s.frameGo = false → s.phase ≠ .idle → step s = .refused .outOfOrder)

/-! ### The whole machine -/

/-- Every step keeps the invariant of the block: the configuration well-formed, every memory canonical, the cursor
inside the table, the sound counter within its count, the bank slots at their values, the line counter in its
range, a grant only in its run step, the cycle and sample counts within the bounds of R188 and R179. -/
def Obligations.StepKeepsInvariant : Prop :=
  ∀ s t : State, s.Inv → step s = .next t → t.Inv

/-- Power-on under a well-formed configuration, with images that lie in their memories, leaves a state within the
invariant, whatever the state before, and `State.reset` is within it (R221, R46).  `State.reset` is power-on under
REFCFG with no images, the model's choice (assumption log 1). -/
def Obligations.ResetMeetsInvariant : Prop :=
  (∀ (p : PowerOn) (s : State), p.cfg.wf = true → p.grom.wf p.cfg.gromBytes = true →
    (∀ image : Memory 8, p.nvram = some image → image.wf p.cfg.nvramBytes = true) →
      ∃ t : State, exec (.hPoweron p) s = .next t ∧ t.Inv) ∧
  State.reset.Inv

/-- R186, which the spec derives, with R188: at `FLUSH` the cycles of the frame lie between the floor of the budget
and that plus the overshoot bound, and are exactly the floor where no overshoot is allowed. -/
def Obligations.CyclesReachTheBudget : Prop :=
  ∀ (s : State) (p : Proc), s.Inv → s.phase = .flush →
    s.cfg.budgetFloor p ≤ s.cycDone p ∧ s.cycDone p ≤ s.cfg.budgetFloor p + s.cfg.overshootMax p ∧
    (s.cfg.overshootMax p = 0 → s.cycDone p = s.cfg.budgetFloor p)

/-- R181, which the spec derives: the target never falls, ends at the floor of the budget, and, where the budget is
written with denominator 1 (how a budget is written is the model's, assumption log 17), rises by its share per slice
or one more. -/
def Obligations.TargetIsProportional : Prop :=
  ∀ (c : Cfg) (p : Proc), c.wf = true →
    (∀ i : Nat, c.target p i ≤ c.target p (i + 1)) ∧
    c.target p (c.sliceCount - 1) = c.budgetFloor p ∧
    ((c.budget p).den = 1 → ∀ i : Nat,
      c.target p (i + 1) = c.target p i + (c.budget p).num / c.sliceCount ∨
      c.target p (i + 1) = c.target p i + (c.budget p).num / c.sliceCount + 1)

/-- R189: a frame is exactly `4 + 5 * SLICE_COUNT + 4` steps from FT.START to FT.DONE.  With nothing scheduled and every
grant returning at once, that many turns lead from `IDLE` with `FRAME_GO` at 1 back to `IDLE`, with one frame counted
and all slices done.  Whatever is scheduled, every turn but power-on either leaves the count of completed steps or adds
one, and the last step of the frame is the one with that number.  A processor that never returns from its grant hangs
the frame.  The first part rests on every grant returning (93 U10, assumption log 7) and on an empty schedule, in
which no other agent moves (assumption log 5), as does the last. -/
def Obligations.FrameTerminates : Prop :=
  (∀ s : State, s.cfg.wf = true → s.phase = .idle → s.frameGo = true → s.schedule = [] → s.grant = none →
    s.returned = true →
      ∃ t : State, Sys2Proof.core.run (4 + 5 * s.cfg.sliceCount + 4) s = .next t ∧
        t.phase = .idle ∧ t.framecnt = s.framecnt + 1 ∧ t.slice = s.cfg.sliceCount ∧
        t.audDone = s.cfg.frameSamples) ∧
  (∀ s t : State, s.Inv → step s = .next t →
    (∀ p : PowerOn, decode s.cfg (fetch s).1 ≠ .ok (.hPoweron p)) →
      t.stepsDone = s.stepsDone ∨
      (s.phase ≠ .done ∧ t.stepsDone = s.stepsDone + 1) ∨
      (s.phase = .done ∧ t.phase = .idle ∧ s.stepsDone + 1 = 4 + 5 * s.cfg.sliceCount + 4)) ∧
  (∀ (p : Proc) (s : State), s.schedule = [] → s.returned = false → s.phase = runPhase p →
    (∃ g : Grant, s.grant = some g) ∨ s.cycDone p < s.cfg.target p s.slice →
      ∀ n : Nat, ∃ t : State, Sys2Proof.core.run n s = .next t ∧ t.phase = runPhase p)

/-- Which operation writes which cell of R20, cell by cell, power-on apart: no operation the constants of a run and
`FRAME_GO`, which the host drives; only a restore slot 1 of the bank offsets, and it alone clears the write-enable
flag; every other cell only the operations named here (R20, R25, R36, R45, R119, R137, R210, R211).  The soft reset's
draw of `PALLATCH` is the model's (assumption log 14). -/
def Obligations.OnlyNamedOperationsWrite : Prop :=
  ∀ (i : Instr) (s t : State), exec i s = .next t → (∀ p : PowerOn, i ≠ .hPoweron p) →
    t.cfg = s.cfg ∧ t.grom = s.grom ∧ t.frameGo = s.frameGo ∧
    ((∀ img : SavedImage, i ≠ .hRestore img) →
      t.gbankOff1 = s.gbankOff1 ∧
      (s.nvwe = true → t.nvwe = true) ∧
      (i ≠ .nvweWr → t.nvwe = s.nvwe) ∧
      ((∀ (k : Nat) (v : Word), i ≠ .nvramWr k v) → t.nvram = s.nvram) ∧
      ((∀ (k : Nat) (v : Word), i ≠ .palWr k v) → t.palram = s.palram) ∧
      ((∀ (k : Nat) (v : Word), i ≠ .palWr k v) → i ≠ .ftPalrc → t.palcache = s.palcache) ∧
      ((∀ (k : Nat) (v : Word), i ≠ .vramWr k v) → (∀ m : DmaMove, i ≠ .eDma m) → t.vram = s.vram) ∧
      ((∀ m : DmaMove, i ≠ .eDma m) → i ≠ .ftRstchk → t.pallatch = s.pallatch) ∧
      ((∀ v : Word, i ≠ .ctrlWr v) →
        t.vbank = s.vbank ∧ t.gbankOff0 = s.gbankOff0 ∧ t.ctrlval = s.ctrlval)) ∧
    (i ≠ .protRd → (∀ v : Word, i ≠ .protWr v) → i ≠ .protRst → i ≠ .ftRstchk → t.cursor = s.cursor) ∧
    ((∀ a : Addr, i ≠ .sndstRd a) → (∀ (a : Addr) (v : Word), i ≠ .sndlatchWr a v) → i ≠ .ftRstchk →
      t.sndack = s.sndack) ∧
    (i ≠ .hDirty → i ≠ .ftPalrc → t.paldirty = s.paldirty) ∧
    ((∀ b : Bool, i ≠ .hBind b) → t.surfaceBound = s.surfaceBound) ∧
    ((∀ (i0 i1 i2 : Word) (d0 d1 : Byte), i ≠ .hInput i0 i1 i2 d0 d1) →
      t.inRaw0 = s.inRaw0 ∧ t.inRaw1 = s.inRaw1 ∧ t.inRaw2 = s.inRaw2 ∧
      t.dipRaw0 = s.dipRaw0 ∧ t.dipRaw1 = s.dipRaw1) ∧
    (i ≠ .ftInsnap →
      t.insnap0 = s.insnap0 ∧ t.insnap1 = s.insnap1 ∧ t.insnap2 = s.insnap2 ∧ t.dipsnap = s.dipsnap) ∧
    (i ≠ .hResetreq → i ≠ .ftRstchk → t.resetPending = s.resetPending) ∧
    ((∀ d : Desc, i ≠ .scanline d) → i ≠ .ftScan → t.pixbuf = s.pixbuf) ∧
    (i ≠ .ftBlit → t.hostsurf = s.hostsurf) ∧
    ((∀ code : BitVec 4, decodeSeq code ≠ .ok i) → t.phase = s.phase) ∧
    (i ≠ .ftClracc → i ≠ .ftNext → t.slice = s.slice) ∧
    (i ≠ .ftClracc → i ≠ .ftRun0 → t.cycDone0 = s.cycDone0) ∧
    (i ≠ .ftClracc → i ≠ .ftRun1 → t.cycDone1 = s.cycDone1) ∧
    (i ≠ .ftClracc → i ≠ .ftAudio → i ≠ .ftFlush → t.audDone = s.audDone) ∧
    (i ≠ .ftDone → t.framecnt = s.framecnt)
end

