-- ==== Sys2Proof/Laws/Decode.lean ====
section
/-! SUPPORT. The laws of the address map and of the decoder: what a well-formed configuration gives, which handler
answers, the fields of a transaction. -/

namespace Sys2Proof

/-! ### The parts of a well-formed configuration -/

theorem mem_handlersInOrder (h : Handler) : h ∈ handlersInOrder := by cases h <;> decide

section
variable {c : Cfg}

theorem Cfg.wf_mapWf (hc : c.wf = true) : c.mapWf = true := by
  simp only [Cfg.wf, Bool.and_eq_true] at hc; exact hc.1.1.1.1.1.2

theorem Cfg.wf_protWf (hc : c.wf = true) : c.protWf = true := by
  simp only [Cfg.wf, Bool.and_eq_true] at hc; exact hc.1.1.1.1.2

theorem Cfg.wf_videoWf (hc : c.wf = true) : c.videoWf = true := by
  simp only [Cfg.wf, Bool.and_eq_true] at hc; exact hc.1.1.1.2

theorem Cfg.wf_windowsWf (hc : c.wf = true) : c.windowsWf = true := by
  simp only [Cfg.wf, Bool.and_eq_true] at hc; exact hc.1.1.2

theorem Cfg.wf_registersWf (hc : c.wf = true) : c.registersWf = true := by
  simp only [Cfg.wf, Bool.and_eq_true] at hc; exact hc.1.2

theorem Cfg.wf_frameWf (hc : c.wf = true) : c.frameWf = true := by
  simp only [Cfg.wf, Bool.and_eq_true] at hc; exact hc.2

theorem Cfg.wf_rangeWf (hc : c.wf = true) (h : Handler) : c.rangeWf h = true := by
  have hm := Cfg.wf_mapWf hc
  simp only [Cfg.mapWf, List.all_eq_true, Bool.and_eq_true] at hm
  exact (hm h (mem_handlersInOrder h)).1

theorem Cfg.wf_apart (hc : c.wf = true) (h g : Handler) : c.apart h g = true := by
  have hm := Cfg.wf_mapWf hc
  simp only [Cfg.mapWf, List.all_eq_true, Bool.and_eq_true] at hm
  exact (hm h (mem_handlersInOrder h)).2 g (mem_handlersInOrder g)

theorem Cfg.wf_protTable (hc : c.wf = true) : 0 < c.protTable.length := by
  have h := Cfg.wf_protWf hc
  simp only [Cfg.protWf, Bool.and_eq_true, decide_eq_true_eq] at h
  omega

theorem Cfg.wf_sliceCount (hc : c.wf = true) : 0 < c.sliceCount := by
  have h := Cfg.wf_frameWf hc
  simp only [Cfg.frameWf, Bool.and_eq_true, decide_eq_true_eq] at h
  omega

theorem Cfg.wf_budgetDen (hc : c.wf = true) (p : Proc) : 0 < (c.budget p).den := by
  have h := Cfg.wf_frameWf hc
  simp only [Cfg.frameWf, Bool.and_eq_true, decide_eq_true_eq] at h
  cases p
  · exact h.1.2
  · exact h.2

theorem Cfg.wf_vramWords (hc : c.wf = true) : 1024 ≤ c.vramWords := by
  have h := Cfg.wf_videoWf hc
  simp only [Cfg.videoWf, Bool.and_eq_true, decide_eq_true_eq] at h
  exact h.1.1.1.1.1.1.1.1.2

theorem Cfg.wf_palMask (hc : c.wf = true) : ∃ k, c.palEntries = 2 ^ k := by
  have h := Cfg.wf_videoWf hc
  simp only [Cfg.videoWf, isPowerOfTwo, Bool.and_eq_true, decide_eq_true_eq] at h
  exact ⟨_, h.1.1.1.2.symm⟩

/-- The palette mask is a remainder. -/
theorem Cfg.and_palIndexMask (hc : c.wf = true) (x : Nat) : x &&& c.palIndexMask = x % c.palEntries := by
  obtain ⟨k, hk⟩ := Cfg.wf_palMask hc
  have hm : c.palIndexMask = 2 ^ k - 1 := by simp only [Cfg.palEntries] at hk; omega
  rw [hk, hm, Nat.and_two_pow_sub_one_eq_mod]

/-! ### Which handler answers -/

theorem Cfg.claims_iff (h : Handler) (a : Nat) (rw : Bool) : c.claims h a rw = true ↔
    (c.range h).lo ≤ a ∧ a ≤ (c.range h).hi ∧ h.admitsDir rw = true := by
  simp only [Cfg.claims, Bool.and_eq_true, decide_eq_true_eq, and_assoc]

/-- In a well-formed configuration no transaction is claimed twice (R71). -/
theorem Cfg.claims_unique (hc : c.wf = true) {h g : Handler} {a : Nat} {rw : Bool}
    (hh : c.claims h a rw = true) (hg : c.claims g a rw = true) : h = g := by
  rw [Cfg.claims_iff] at hh hg
  have ha := Cfg.wf_apart hc h g
  simp only [Cfg.apart, Bool.or_eq_true, decide_eq_true_eq, beq_iff_eq] at ha
  rcases ha with ((ha | ha) | ha) | ha
  · exact ha
  · exfalso
    have h1 := hh.2.2
    have h2 := hg.2.2
    revert h1 h2 ha
    cases rw <;> cases h <;> cases g <;> decide
  · omega
  · omega

/-- Stage 1 finds the handler that claims the transaction. -/
theorem Cfg.select_of_claims (hc : c.wf = true) {h : Handler} {a : Nat} {rw : Bool}
    (hh : c.claims h a rw = true) : c.select a rw = some h := by
  unfold Cfg.select
  cases hf : handlersInOrder.find? fun g => c.claims g a rw with
  | none =>
    rw [List.find?_eq_none] at hf
    exact absurd hh (hf h (mem_handlersInOrder h))
  | some g =>
    have hg := List.find?_some hf
    rw [Cfg.claims_unique hc hh hg]

theorem Cfg.claims_of_select {h : Handler} {a : Nat} {rw : Bool} (hs : c.select a rw = some h) :
    c.claims h a rw = true := List.find?_some (p := fun g => c.claims g a rw) hs

/-! ### Offsets -/

theorem Cfg.wordOffset_wordAddr (h : Handler) (k : Nat) : c.wordOffset h (c.wordAddr h k) = k := by
  simp [Cfg.wordOffset, Cfg.wordAddr, Nat.shiftLeft_eq, Nat.shiftRight_eq_div_pow]

theorem Cfg.wordAddr_bounds (hc : c.wf = true) (h : Handler) {k : Nat} (hk : k ≤ c.lastOffset h) :
    (c.range h).lo ≤ c.wordAddr h k ∧ c.wordAddr h k ≤ (c.range h).hi ∧ c.wordAddr h k < 2 ^ 32 := by
  have hr := Cfg.wf_rangeWf hc h
  simp only [Cfg.rangeWf, Bool.and_eq_true, decide_eq_true_eq] at hr
  have hm : k * 2 ^ c.addrShift ≤ (c.range h).hi - (c.range h).lo := by
    rw [Cfg.lastOffset, Nat.shiftRight_eq_div_pow] at hk
    calc k * 2 ^ c.addrShift ≤ ((c.range h).hi - (c.range h).lo) / 2 ^ c.addrShift * 2 ^ c.addrShift :=
          Nat.mul_le_mul_right _ hk
      _ ≤ _ := Nat.div_mul_le_self _ _
  have h1 := hr.1.1.1
  have h2 : (c.range h).hi < 2 ^ 32 := hr.1.1.2
  simp only [Cfg.wordAddr, Nat.shiftLeft_eq]
  clear hr hk
  omega

theorem Cfg.select_wordAddr (hc : c.wf = true) {h : Handler} {k : Nat} {rw : Bool} (hk : k ≤ c.lastOffset h)
    (hd : h.admitsDir rw = true) : c.select (c.wordAddr h k) rw = some h := by
  have hb := Cfg.wordAddr_bounds hc h hk
  exact Cfg.select_of_claims hc ((Cfg.claims_iff _ _ _).2 ⟨hb.1, hb.2.1, hd⟩)

theorem Cfg.toNat_wordAddr (hc : c.wf = true) {h : Handler} {k : Nat} (hk : k ≤ c.lastOffset h) :
    (BitVec.ofNat 32 (c.wordAddr h k)).toNat = c.wordAddr h k := by
  rw [BitVec.toNat_ofNat, Nat.mod_eq_of_lt (Cfg.wordAddr_bounds hc h hk).2.2]

theorem Cfg.wordOffset_le_lastOffset {h : Handler} {a : Nat} {rw : Bool} (hs : c.select a rw = some h) :
    c.wordOffset h a ≤ c.lastOffset h := by
  have hcl := (Cfg.claims_iff _ _ _).1 (Cfg.claims_of_select hs)
  simp only [Cfg.wordOffset, Cfg.lastOffset, Nat.shiftRight_eq_div_pow]
  exact Nat.div_le_div_right (by omega)

/-- The first offset of palette entry `i` reaches entry `i`. -/
theorem Cfg.paletteIndex_paletteOffset (hc : c.wf = true) {i : Nat} (hi : i < c.palEntries) :
    c.paletteIndex (c.wordAddr .pal (c.paletteOffset i)) = i := by
  have hdiv : c.wordAddr .pal (c.paletteOffset i) >>> c.addrShift =
      (c.palRange.lo >>> c.addrShift) + c.paletteOffset i := by
    simp only [Cfg.wordAddr, Cfg.range, Nat.shiftLeft_eq, Nat.shiftRight_eq_div_pow]
    rw [Nat.add_mul_div_right _ _ (Nat.two_pow_pos _)]
  rw [Cfg.paletteIndex, hdiv, Cfg.and_palIndexMask hc, Cfg.paletteOffset]
  generalize c.palRange.lo >>> c.addrShift = b
  have hb : b % c.palEntries < c.palEntries := Nat.mod_lt _ (by omega)
  rw [Nat.add_mod, Nat.mod_mod]
  conv_lhs => rw [← Nat.add_mod]
  rw [← Nat.mod_add_mod, show b % c.palEntries + (i + c.palEntries - b % c.palEntries) = i + c.palEntries by omega,
    Nat.add_mod_right, Nat.mod_eq_of_lt hi]

end

/-! ### The fields of a transaction (R70) -/

section
variable (rw : Bool) (a : Addr) (v : Word)

theorem toNat_busRecord : (busRecord rw a v).toNat = rw.toNat * 2 ^ 48 + a.toNat * 2 ^ 16 + v.toNat := by
  have ha := a.isLt
  have hv := v.isLt
  simp only [busRecord, BitVec.toNat_append, BitVec.toNat_ofBool]
  rw [← Nat.shiftLeft_add_eq_or_of_lt hv, ← Nat.shiftLeft_add_eq_or_of_lt ha]
  simp only [Nat.shiftLeft_eq]
  omega

@[simp] theorem busAddr_busRecord : busAddr (busRecord rw a v) = a := by
  apply BitVec.eq_of_toNat_eq
  have ha := a.isLt
  have hv := v.isLt
  simp only [busAddr, BitVec.extractLsb'_toNat, toNat_busRecord, Nat.shiftRight_eq_div_pow]
  cases rw <;> simp <;> omega

@[simp] theorem busData_busRecord : busData (busRecord rw a v) = v := by
  apply BitVec.eq_of_toNat_eq
  have ha := a.isLt
  have hv := v.isLt
  simp only [busData, BitVec.extractLsb'_toNat, toNat_busRecord, Nat.shiftRight_eq_div_pow]
  omega

@[simp] theorem busRw_busRecord : busRw (busRecord rw a v) = rw := by
  have ha := a.isLt
  have hv := v.isLt
  simp only [busRw, ← BitVec.testBit_toNat, toNat_busRecord, Nat.testBit_eq_decide_div_mod_eq]
  cases rw <;> simp <;> omega

end

/-- The decoder's answer once stage 1 and stage 2 are known. -/
theorem decodeBus_busRecord {c : Cfg} {rw : Bool} {a : Addr} {v : Word} {h : Option Handler} {op : BusOp}
    (hs : c.select a.toNat rw = h)
    (ho : decodeOpsel (BitVec.ofBool rw ++ selectCode h ++ BitVec.ofNat 2 (c.offsetOf h a.toNat)) = some op) :
    decodeBus c (busRecord rw a v) = .ok (busOperands c op a v) := by
  simp [decodeBus, Cfg.opselOf, hs, ho]

/-! ### Descriptors (R85) -/

/-- The four fields of an encoded descriptor are the descriptor. -/
@[simp] theorem decodeDesc_encodeDesc (d : Desc) : decodeDesc (encodeDesc d) = d := by
  obtain ⟨r, c, l, b⟩ := d
  have hr := r.isLt
  have hc := c.isLt
  have hl := l.isLt
  have hb := b.isLt
  have hn : (encodeDesc ⟨r, c, l, b⟩).toNat = r.toNat * 2 ^ 48 + c.toNat * 2 ^ 32 + l.toNat * 2 ^ 16 + b.toNat := by
    simp only [encodeDesc, BitVec.toNat_append]
    rw [← Nat.shiftLeft_add_eq_or_of_lt hb, ← Nat.shiftLeft_add_eq_or_of_lt hl, ← Nat.shiftLeft_add_eq_or_of_lt hc]
    simp only [Nat.shiftLeft_eq]
    omega
  simp only [decodeDesc, Desc.mk.injEq]
  refine ⟨?_, ?_, ?_, ?_⟩ <;> apply BitVec.eq_of_toNat_eq <;>
    simp only [BitVec.extractLsb'_toNat, hn, Nat.shiftRight_eq_div_pow] <;> omega

end Sys2Proof
end

