-- ==== Sys2Proof/Laws/State.lean ====
section
/-! SUPPORT. For each named update of the state and each field, what the field is afterwards. -/

namespace Sys2Proof.Machine

section
variable (s : State) (i : Nat) (v : Word)
@[simp] theorem writeVram_cfg : (s.writeVram i v).cfg = s.cfg := rfl
@[simp] theorem writeVram_grom : (s.writeVram i v).grom = s.grom := rfl
@[simp] theorem writeVram_cursor : (s.writeVram i v).cursor = s.cursor := rfl
@[simp] theorem writeVram_vbank : (s.writeVram i v).vbank = s.vbank := rfl
@[simp] theorem writeVram_gbankOff0 : (s.writeVram i v).gbankOff0 = s.gbankOff0 := rfl
@[simp] theorem writeVram_gbankOff1 : (s.writeVram i v).gbankOff1 = s.gbankOff1 := rfl
@[simp] theorem writeVram_ctrlval : (s.writeVram i v).ctrlval = s.ctrlval := rfl
@[simp] theorem writeVram_nvwe : (s.writeVram i v).nvwe = s.nvwe := rfl
@[simp] theorem writeVram_sndack : (s.writeVram i v).sndack = s.sndack := rfl
@[simp] theorem writeVram_paldirty : (s.writeVram i v).paldirty = s.paldirty := rfl
@[simp] theorem writeVram_surfaceBound : (s.writeVram i v).surfaceBound = s.surfaceBound := rfl
@[simp] theorem writeVram_pallatch : (s.writeVram i v).pallatch = s.pallatch := rfl
@[simp] theorem writeVram_inRaw0 : (s.writeVram i v).inRaw0 = s.inRaw0 := rfl
@[simp] theorem writeVram_inRaw1 : (s.writeVram i v).inRaw1 = s.inRaw1 := rfl
@[simp] theorem writeVram_inRaw2 : (s.writeVram i v).inRaw2 = s.inRaw2 := rfl
@[simp] theorem writeVram_dipRaw0 : (s.writeVram i v).dipRaw0 = s.dipRaw0 := rfl
@[simp] theorem writeVram_dipRaw1 : (s.writeVram i v).dipRaw1 = s.dipRaw1 := rfl
@[simp] theorem writeVram_insnap0 : (s.writeVram i v).insnap0 = s.insnap0 := rfl
@[simp] theorem writeVram_insnap1 : (s.writeVram i v).insnap1 = s.insnap1 := rfl
@[simp] theorem writeVram_insnap2 : (s.writeVram i v).insnap2 = s.insnap2 := rfl
@[simp] theorem writeVram_dipsnap : (s.writeVram i v).dipsnap = s.dipsnap := rfl
@[simp] theorem writeVram_resetPending : (s.writeVram i v).resetPending = s.resetPending := rfl
@[simp] theorem writeVram_vram : (s.writeVram i v).vram = writeCell s.vram i v := rfl
@[simp] theorem writeVram_palram : (s.writeVram i v).palram = s.palram := rfl
@[simp] theorem writeVram_palcache : (s.writeVram i v).palcache = s.palcache := rfl
@[simp] theorem writeVram_nvram : (s.writeVram i v).nvram = s.nvram := rfl
@[simp] theorem writeVram_pixbuf : (s.writeVram i v).pixbuf = s.pixbuf := rfl
@[simp] theorem writeVram_hostsurf : (s.writeVram i v).hostsurf = s.hostsurf := rfl
@[simp] theorem writeVram_phase : (s.writeVram i v).phase = s.phase := rfl
@[simp] theorem writeVram_slice : (s.writeVram i v).slice = s.slice := rfl
@[simp] theorem writeVram_cycDone0 : (s.writeVram i v).cycDone0 = s.cycDone0 := rfl
@[simp] theorem writeVram_cycDone1 : (s.writeVram i v).cycDone1 = s.cycDone1 := rfl
@[simp] theorem writeVram_audDone : (s.writeVram i v).audDone = s.audDone := rfl
@[simp] theorem writeVram_framecnt : (s.writeVram i v).framecnt = s.framecnt := rfl
@[simp] theorem writeVram_frameGo : (s.writeVram i v).frameGo = s.frameGo := rfl
@[simp] theorem writeVram_desc : (s.writeVram i v).desc = s.desc := rfl
@[simp] theorem writeVram_ran : (s.writeVram i v).ran = s.ran := rfl
@[simp] theorem writeVram_returned : (s.writeVram i v).returned = s.returned := rfl
@[simp] theorem writeVram_grant : (s.writeVram i v).grant = s.grant := rfl
@[simp] theorem writeVram_rdata : (s.writeVram i v).rdata = s.rdata := rfl
@[simp] theorem writeVram_saved : (s.writeVram i v).saved = s.saved := rfl
@[simp] theorem writeVram_events : (s.writeVram i v).events = s.events := rfl
@[simp] theorem writeVram_log : (s.writeVram i v).log = s.log := rfl
@[simp] theorem writeVram_schedule : (s.writeVram i v).schedule = s.schedule := rfl
@[simp] theorem writeVram_draw : (s.writeVram i v).draw = s.draw := rfl
end

section
variable (s : State) (i : Nat) (v : Word)
@[simp] theorem writePalram_cfg : (s.writePalram i v).cfg = s.cfg := rfl
@[simp] theorem writePalram_grom : (s.writePalram i v).grom = s.grom := rfl
@[simp] theorem writePalram_cursor : (s.writePalram i v).cursor = s.cursor := rfl
@[simp] theorem writePalram_vbank : (s.writePalram i v).vbank = s.vbank := rfl
@[simp] theorem writePalram_gbankOff0 : (s.writePalram i v).gbankOff0 = s.gbankOff0 := rfl
@[simp] theorem writePalram_gbankOff1 : (s.writePalram i v).gbankOff1 = s.gbankOff1 := rfl
@[simp] theorem writePalram_ctrlval : (s.writePalram i v).ctrlval = s.ctrlval := rfl
@[simp] theorem writePalram_nvwe : (s.writePalram i v).nvwe = s.nvwe := rfl
@[simp] theorem writePalram_sndack : (s.writePalram i v).sndack = s.sndack := rfl
@[simp] theorem writePalram_paldirty : (s.writePalram i v).paldirty = s.paldirty := rfl
@[simp] theorem writePalram_surfaceBound : (s.writePalram i v).surfaceBound = s.surfaceBound := rfl
@[simp] theorem writePalram_pallatch : (s.writePalram i v).pallatch = s.pallatch := rfl
@[simp] theorem writePalram_inRaw0 : (s.writePalram i v).inRaw0 = s.inRaw0 := rfl
@[simp] theorem writePalram_inRaw1 : (s.writePalram i v).inRaw1 = s.inRaw1 := rfl
@[simp] theorem writePalram_inRaw2 : (s.writePalram i v).inRaw2 = s.inRaw2 := rfl
@[simp] theorem writePalram_dipRaw0 : (s.writePalram i v).dipRaw0 = s.dipRaw0 := rfl
@[simp] theorem writePalram_dipRaw1 : (s.writePalram i v).dipRaw1 = s.dipRaw1 := rfl
@[simp] theorem writePalram_insnap0 : (s.writePalram i v).insnap0 = s.insnap0 := rfl
@[simp] theorem writePalram_insnap1 : (s.writePalram i v).insnap1 = s.insnap1 := rfl
@[simp] theorem writePalram_insnap2 : (s.writePalram i v).insnap2 = s.insnap2 := rfl
@[simp] theorem writePalram_dipsnap : (s.writePalram i v).dipsnap = s.dipsnap := rfl
@[simp] theorem writePalram_resetPending : (s.writePalram i v).resetPending = s.resetPending := rfl
@[simp] theorem writePalram_vram : (s.writePalram i v).vram = s.vram := rfl
@[simp] theorem writePalram_palram : (s.writePalram i v).palram = writeCell s.palram i v := rfl
@[simp] theorem writePalram_palcache : (s.writePalram i v).palcache = s.palcache := rfl
@[simp] theorem writePalram_nvram : (s.writePalram i v).nvram = s.nvram := rfl
@[simp] theorem writePalram_pixbuf : (s.writePalram i v).pixbuf = s.pixbuf := rfl
@[simp] theorem writePalram_hostsurf : (s.writePalram i v).hostsurf = s.hostsurf := rfl
@[simp] theorem writePalram_phase : (s.writePalram i v).phase = s.phase := rfl
@[simp] theorem writePalram_slice : (s.writePalram i v).slice = s.slice := rfl
@[simp] theorem writePalram_cycDone0 : (s.writePalram i v).cycDone0 = s.cycDone0 := rfl
@[simp] theorem writePalram_cycDone1 : (s.writePalram i v).cycDone1 = s.cycDone1 := rfl
@[simp] theorem writePalram_audDone : (s.writePalram i v).audDone = s.audDone := rfl
@[simp] theorem writePalram_framecnt : (s.writePalram i v).framecnt = s.framecnt := rfl
@[simp] theorem writePalram_frameGo : (s.writePalram i v).frameGo = s.frameGo := rfl
@[simp] theorem writePalram_desc : (s.writePalram i v).desc = s.desc := rfl
@[simp] theorem writePalram_ran : (s.writePalram i v).ran = s.ran := rfl
@[simp] theorem writePalram_returned : (s.writePalram i v).returned = s.returned := rfl
@[simp] theorem writePalram_grant : (s.writePalram i v).grant = s.grant := rfl
@[simp] theorem writePalram_rdata : (s.writePalram i v).rdata = s.rdata := rfl
@[simp] theorem writePalram_saved : (s.writePalram i v).saved = s.saved := rfl
@[simp] theorem writePalram_events : (s.writePalram i v).events = s.events := rfl
@[simp] theorem writePalram_log : (s.writePalram i v).log = s.log := rfl
@[simp] theorem writePalram_schedule : (s.writePalram i v).schedule = s.schedule := rfl
@[simp] theorem writePalram_draw : (s.writePalram i v).draw = s.draw := rfl
end

section
variable (s : State) (i : Nat) (v : Color)
@[simp] theorem writePalcache_cfg : (s.writePalcache i v).cfg = s.cfg := rfl
@[simp] theorem writePalcache_grom : (s.writePalcache i v).grom = s.grom := rfl
@[simp] theorem writePalcache_cursor : (s.writePalcache i v).cursor = s.cursor := rfl
@[simp] theorem writePalcache_vbank : (s.writePalcache i v).vbank = s.vbank := rfl
@[simp] theorem writePalcache_gbankOff0 : (s.writePalcache i v).gbankOff0 = s.gbankOff0 := rfl
@[simp] theorem writePalcache_gbankOff1 : (s.writePalcache i v).gbankOff1 = s.gbankOff1 := rfl
@[simp] theorem writePalcache_ctrlval : (s.writePalcache i v).ctrlval = s.ctrlval := rfl
@[simp] theorem writePalcache_nvwe : (s.writePalcache i v).nvwe = s.nvwe := rfl
@[simp] theorem writePalcache_sndack : (s.writePalcache i v).sndack = s.sndack := rfl
@[simp] theorem writePalcache_paldirty : (s.writePalcache i v).paldirty = s.paldirty := rfl
@[simp] theorem writePalcache_surfaceBound : (s.writePalcache i v).surfaceBound = s.surfaceBound := rfl
@[simp] theorem writePalcache_pallatch : (s.writePalcache i v).pallatch = s.pallatch := rfl
@[simp] theorem writePalcache_inRaw0 : (s.writePalcache i v).inRaw0 = s.inRaw0 := rfl
@[simp] theorem writePalcache_inRaw1 : (s.writePalcache i v).inRaw1 = s.inRaw1 := rfl
@[simp] theorem writePalcache_inRaw2 : (s.writePalcache i v).inRaw2 = s.inRaw2 := rfl
@[simp] theorem writePalcache_dipRaw0 : (s.writePalcache i v).dipRaw0 = s.dipRaw0 := rfl
@[simp] theorem writePalcache_dipRaw1 : (s.writePalcache i v).dipRaw1 = s.dipRaw1 := rfl
@[simp] theorem writePalcache_insnap0 : (s.writePalcache i v).insnap0 = s.insnap0 := rfl
@[simp] theorem writePalcache_insnap1 : (s.writePalcache i v).insnap1 = s.insnap1 := rfl
@[simp] theorem writePalcache_insnap2 : (s.writePalcache i v).insnap2 = s.insnap2 := rfl
@[simp] theorem writePalcache_dipsnap : (s.writePalcache i v).dipsnap = s.dipsnap := rfl
@[simp] theorem writePalcache_resetPending : (s.writePalcache i v).resetPending = s.resetPending := rfl
@[simp] theorem writePalcache_vram : (s.writePalcache i v).vram = s.vram := rfl
@[simp] theorem writePalcache_palram : (s.writePalcache i v).palram = s.palram := rfl
@[simp] theorem writePalcache_palcache : (s.writePalcache i v).palcache = writeCell s.palcache i v := rfl
@[simp] theorem writePalcache_nvram : (s.writePalcache i v).nvram = s.nvram := rfl
@[simp] theorem writePalcache_pixbuf : (s.writePalcache i v).pixbuf = s.pixbuf := rfl
@[simp] theorem writePalcache_hostsurf : (s.writePalcache i v).hostsurf = s.hostsurf := rfl
@[simp] theorem writePalcache_phase : (s.writePalcache i v).phase = s.phase := rfl
@[simp] theorem writePalcache_slice : (s.writePalcache i v).slice = s.slice := rfl
@[simp] theorem writePalcache_cycDone0 : (s.writePalcache i v).cycDone0 = s.cycDone0 := rfl
@[simp] theorem writePalcache_cycDone1 : (s.writePalcache i v).cycDone1 = s.cycDone1 := rfl
@[simp] theorem writePalcache_audDone : (s.writePalcache i v).audDone = s.audDone := rfl
@[simp] theorem writePalcache_framecnt : (s.writePalcache i v).framecnt = s.framecnt := rfl
@[simp] theorem writePalcache_frameGo : (s.writePalcache i v).frameGo = s.frameGo := rfl
@[simp] theorem writePalcache_desc : (s.writePalcache i v).desc = s.desc := rfl
@[simp] theorem writePalcache_ran : (s.writePalcache i v).ran = s.ran := rfl
@[simp] theorem writePalcache_returned : (s.writePalcache i v).returned = s.returned := rfl
@[simp] theorem writePalcache_grant : (s.writePalcache i v).grant = s.grant := rfl
@[simp] theorem writePalcache_rdata : (s.writePalcache i v).rdata = s.rdata := rfl
@[simp] theorem writePalcache_saved : (s.writePalcache i v).saved = s.saved := rfl
@[simp] theorem writePalcache_events : (s.writePalcache i v).events = s.events := rfl
@[simp] theorem writePalcache_log : (s.writePalcache i v).log = s.log := rfl
@[simp] theorem writePalcache_schedule : (s.writePalcache i v).schedule = s.schedule := rfl
@[simp] theorem writePalcache_draw : (s.writePalcache i v).draw = s.draw := rfl
end

section
variable (s : State) (i : Nat) (v : Byte)
@[simp] theorem writeNvram_cfg : (s.writeNvram i v).cfg = s.cfg := rfl
@[simp] theorem writeNvram_grom : (s.writeNvram i v).grom = s.grom := rfl
@[simp] theorem writeNvram_cursor : (s.writeNvram i v).cursor = s.cursor := rfl
@[simp] theorem writeNvram_vbank : (s.writeNvram i v).vbank = s.vbank := rfl
@[simp] theorem writeNvram_gbankOff0 : (s.writeNvram i v).gbankOff0 = s.gbankOff0 := rfl
@[simp] theorem writeNvram_gbankOff1 : (s.writeNvram i v).gbankOff1 = s.gbankOff1 := rfl
@[simp] theorem writeNvram_ctrlval : (s.writeNvram i v).ctrlval = s.ctrlval := rfl
@[simp] theorem writeNvram_nvwe : (s.writeNvram i v).nvwe = s.nvwe := rfl
@[simp] theorem writeNvram_sndack : (s.writeNvram i v).sndack = s.sndack := rfl
@[simp] theorem writeNvram_paldirty : (s.writeNvram i v).paldirty = s.paldirty := rfl
@[simp] theorem writeNvram_surfaceBound : (s.writeNvram i v).surfaceBound = s.surfaceBound := rfl
@[simp] theorem writeNvram_pallatch : (s.writeNvram i v).pallatch = s.pallatch := rfl
@[simp] theorem writeNvram_inRaw0 : (s.writeNvram i v).inRaw0 = s.inRaw0 := rfl
@[simp] theorem writeNvram_inRaw1 : (s.writeNvram i v).inRaw1 = s.inRaw1 := rfl
@[simp] theorem writeNvram_inRaw2 : (s.writeNvram i v).inRaw2 = s.inRaw2 := rfl
@[simp] theorem writeNvram_dipRaw0 : (s.writeNvram i v).dipRaw0 = s.dipRaw0 := rfl
@[simp] theorem writeNvram_dipRaw1 : (s.writeNvram i v).dipRaw1 = s.dipRaw1 := rfl
@[simp] theorem writeNvram_insnap0 : (s.writeNvram i v).insnap0 = s.insnap0 := rfl
@[simp] theorem writeNvram_insnap1 : (s.writeNvram i v).insnap1 = s.insnap1 := rfl
@[simp] theorem writeNvram_insnap2 : (s.writeNvram i v).insnap2 = s.insnap2 := rfl
@[simp] theorem writeNvram_dipsnap : (s.writeNvram i v).dipsnap = s.dipsnap := rfl
@[simp] theorem writeNvram_resetPending : (s.writeNvram i v).resetPending = s.resetPending := rfl
@[simp] theorem writeNvram_vram : (s.writeNvram i v).vram = s.vram := rfl
@[simp] theorem writeNvram_palram : (s.writeNvram i v).palram = s.palram := rfl
@[simp] theorem writeNvram_palcache : (s.writeNvram i v).palcache = s.palcache := rfl
@[simp] theorem writeNvram_nvram : (s.writeNvram i v).nvram = writeCell s.nvram i v := rfl
@[simp] theorem writeNvram_pixbuf : (s.writeNvram i v).pixbuf = s.pixbuf := rfl
@[simp] theorem writeNvram_hostsurf : (s.writeNvram i v).hostsurf = s.hostsurf := rfl
@[simp] theorem writeNvram_phase : (s.writeNvram i v).phase = s.phase := rfl
@[simp] theorem writeNvram_slice : (s.writeNvram i v).slice = s.slice := rfl
@[simp] theorem writeNvram_cycDone0 : (s.writeNvram i v).cycDone0 = s.cycDone0 := rfl
@[simp] theorem writeNvram_cycDone1 : (s.writeNvram i v).cycDone1 = s.cycDone1 := rfl
@[simp] theorem writeNvram_audDone : (s.writeNvram i v).audDone = s.audDone := rfl
@[simp] theorem writeNvram_framecnt : (s.writeNvram i v).framecnt = s.framecnt := rfl
@[simp] theorem writeNvram_frameGo : (s.writeNvram i v).frameGo = s.frameGo := rfl
@[simp] theorem writeNvram_desc : (s.writeNvram i v).desc = s.desc := rfl
@[simp] theorem writeNvram_ran : (s.writeNvram i v).ran = s.ran := rfl
@[simp] theorem writeNvram_returned : (s.writeNvram i v).returned = s.returned := rfl
@[simp] theorem writeNvram_grant : (s.writeNvram i v).grant = s.grant := rfl
@[simp] theorem writeNvram_rdata : (s.writeNvram i v).rdata = s.rdata := rfl
@[simp] theorem writeNvram_saved : (s.writeNvram i v).saved = s.saved := rfl
@[simp] theorem writeNvram_events : (s.writeNvram i v).events = s.events := rfl
@[simp] theorem writeNvram_log : (s.writeNvram i v).log = s.log := rfl
@[simp] theorem writeNvram_schedule : (s.writeNvram i v).schedule = s.schedule := rfl
@[simp] theorem writeNvram_draw : (s.writeNvram i v).draw = s.draw := rfl
end

section
variable (s : State) (e : Event)
@[simp] theorem emit_cfg : (s.emit e).cfg = s.cfg := rfl
@[simp] theorem emit_grom : (s.emit e).grom = s.grom := rfl
@[simp] theorem emit_cursor : (s.emit e).cursor = s.cursor := rfl
@[simp] theorem emit_vbank : (s.emit e).vbank = s.vbank := rfl
@[simp] theorem emit_gbankOff0 : (s.emit e).gbankOff0 = s.gbankOff0 := rfl
@[simp] theorem emit_gbankOff1 : (s.emit e).gbankOff1 = s.gbankOff1 := rfl
@[simp] theorem emit_ctrlval : (s.emit e).ctrlval = s.ctrlval := rfl
@[simp] theorem emit_nvwe : (s.emit e).nvwe = s.nvwe := rfl
@[simp] theorem emit_sndack : (s.emit e).sndack = s.sndack := rfl
@[simp] theorem emit_paldirty : (s.emit e).paldirty = s.paldirty := rfl
@[simp] theorem emit_surfaceBound : (s.emit e).surfaceBound = s.surfaceBound := rfl
@[simp] theorem emit_pallatch : (s.emit e).pallatch = s.pallatch := rfl
@[simp] theorem emit_inRaw0 : (s.emit e).inRaw0 = s.inRaw0 := rfl
@[simp] theorem emit_inRaw1 : (s.emit e).inRaw1 = s.inRaw1 := rfl
@[simp] theorem emit_inRaw2 : (s.emit e).inRaw2 = s.inRaw2 := rfl
@[simp] theorem emit_dipRaw0 : (s.emit e).dipRaw0 = s.dipRaw0 := rfl
@[simp] theorem emit_dipRaw1 : (s.emit e).dipRaw1 = s.dipRaw1 := rfl
@[simp] theorem emit_insnap0 : (s.emit e).insnap0 = s.insnap0 := rfl
@[simp] theorem emit_insnap1 : (s.emit e).insnap1 = s.insnap1 := rfl
@[simp] theorem emit_insnap2 : (s.emit e).insnap2 = s.insnap2 := rfl
@[simp] theorem emit_dipsnap : (s.emit e).dipsnap = s.dipsnap := rfl
@[simp] theorem emit_resetPending : (s.emit e).resetPending = s.resetPending := rfl
@[simp] theorem emit_vram : (s.emit e).vram = s.vram := rfl
@[simp] theorem emit_palram : (s.emit e).palram = s.palram := rfl
@[simp] theorem emit_palcache : (s.emit e).palcache = s.palcache := rfl
@[simp] theorem emit_nvram : (s.emit e).nvram = s.nvram := rfl
@[simp] theorem emit_pixbuf : (s.emit e).pixbuf = s.pixbuf := rfl
@[simp] theorem emit_hostsurf : (s.emit e).hostsurf = s.hostsurf := rfl
@[simp] theorem emit_phase : (s.emit e).phase = s.phase := rfl
@[simp] theorem emit_slice : (s.emit e).slice = s.slice := rfl
@[simp] theorem emit_cycDone0 : (s.emit e).cycDone0 = s.cycDone0 := rfl
@[simp] theorem emit_cycDone1 : (s.emit e).cycDone1 = s.cycDone1 := rfl
@[simp] theorem emit_audDone : (s.emit e).audDone = s.audDone := rfl
@[simp] theorem emit_framecnt : (s.emit e).framecnt = s.framecnt := rfl
@[simp] theorem emit_frameGo : (s.emit e).frameGo = s.frameGo := rfl
@[simp] theorem emit_desc : (s.emit e).desc = s.desc := rfl
@[simp] theorem emit_ran : (s.emit e).ran = s.ran := rfl
@[simp] theorem emit_returned : (s.emit e).returned = s.returned := rfl
@[simp] theorem emit_grant : (s.emit e).grant = s.grant := rfl
@[simp] theorem emit_rdata : (s.emit e).rdata = s.rdata := rfl
@[simp] theorem emit_saved : (s.emit e).saved = s.saved := rfl
@[simp] theorem emit_events : (s.emit e).events = s.events ++ [e] := rfl
@[simp] theorem emit_log : (s.emit e).log = s.log := rfl
@[simp] theorem emit_schedule : (s.emit e).schedule = s.schedule := rfl
@[simp] theorem emit_draw : (s.emit e).draw = s.draw := rfl
end

section
variable (s : State) (e : LogEntry)
@[simp] theorem addLog_cfg : (s.addLog e).cfg = s.cfg := rfl
@[simp] theorem addLog_grom : (s.addLog e).grom = s.grom := rfl
@[simp] theorem addLog_cursor : (s.addLog e).cursor = s.cursor := rfl
@[simp] theorem addLog_vbank : (s.addLog e).vbank = s.vbank := rfl
@[simp] theorem addLog_gbankOff0 : (s.addLog e).gbankOff0 = s.gbankOff0 := rfl
@[simp] theorem addLog_gbankOff1 : (s.addLog e).gbankOff1 = s.gbankOff1 := rfl
@[simp] theorem addLog_ctrlval : (s.addLog e).ctrlval = s.ctrlval := rfl
@[simp] theorem addLog_nvwe : (s.addLog e).nvwe = s.nvwe := rfl
@[simp] theorem addLog_sndack : (s.addLog e).sndack = s.sndack := rfl
@[simp] theorem addLog_paldirty : (s.addLog e).paldirty = s.paldirty := rfl
@[simp] theorem addLog_surfaceBound : (s.addLog e).surfaceBound = s.surfaceBound := rfl
@[simp] theorem addLog_pallatch : (s.addLog e).pallatch = s.pallatch := rfl
@[simp] theorem addLog_inRaw0 : (s.addLog e).inRaw0 = s.inRaw0 := rfl
@[simp] theorem addLog_inRaw1 : (s.addLog e).inRaw1 = s.inRaw1 := rfl
@[simp] theorem addLog_inRaw2 : (s.addLog e).inRaw2 = s.inRaw2 := rfl
@[simp] theorem addLog_dipRaw0 : (s.addLog e).dipRaw0 = s.dipRaw0 := rfl
@[simp] theorem addLog_dipRaw1 : (s.addLog e).dipRaw1 = s.dipRaw1 := rfl
@[simp] theorem addLog_insnap0 : (s.addLog e).insnap0 = s.insnap0 := rfl
@[simp] theorem addLog_insnap1 : (s.addLog e).insnap1 = s.insnap1 := rfl
@[simp] theorem addLog_insnap2 : (s.addLog e).insnap2 = s.insnap2 := rfl
@[simp] theorem addLog_dipsnap : (s.addLog e).dipsnap = s.dipsnap := rfl
@[simp] theorem addLog_resetPending : (s.addLog e).resetPending = s.resetPending := rfl
@[simp] theorem addLog_vram : (s.addLog e).vram = s.vram := rfl
@[simp] theorem addLog_palram : (s.addLog e).palram = s.palram := rfl
@[simp] theorem addLog_palcache : (s.addLog e).palcache = s.palcache := rfl
@[simp] theorem addLog_nvram : (s.addLog e).nvram = s.nvram := rfl
@[simp] theorem addLog_pixbuf : (s.addLog e).pixbuf = s.pixbuf := rfl
@[simp] theorem addLog_hostsurf : (s.addLog e).hostsurf = s.hostsurf := rfl
@[simp] theorem addLog_phase : (s.addLog e).phase = s.phase := rfl
@[simp] theorem addLog_slice : (s.addLog e).slice = s.slice := rfl
@[simp] theorem addLog_cycDone0 : (s.addLog e).cycDone0 = s.cycDone0 := rfl
@[simp] theorem addLog_cycDone1 : (s.addLog e).cycDone1 = s.cycDone1 := rfl
@[simp] theorem addLog_audDone : (s.addLog e).audDone = s.audDone := rfl
@[simp] theorem addLog_framecnt : (s.addLog e).framecnt = s.framecnt := rfl
@[simp] theorem addLog_frameGo : (s.addLog e).frameGo = s.frameGo := rfl
@[simp] theorem addLog_desc : (s.addLog e).desc = s.desc := rfl
@[simp] theorem addLog_ran : (s.addLog e).ran = s.ran := rfl
@[simp] theorem addLog_returned : (s.addLog e).returned = s.returned := rfl
@[simp] theorem addLog_grant : (s.addLog e).grant = s.grant := rfl
@[simp] theorem addLog_rdata : (s.addLog e).rdata = s.rdata := rfl
@[simp] theorem addLog_saved : (s.addLog e).saved = s.saved := rfl
@[simp] theorem addLog_events : (s.addLog e).events = s.events := rfl
@[simp] theorem addLog_log : (s.addLog e).log = s.log ++ [e] := rfl
@[simp] theorem addLog_schedule : (s.addLog e).schedule = s.schedule := rfl
@[simp] theorem addLog_draw : (s.addLog e).draw = s.draw := rfl
end

section
variable (s : State) (v : Word)
@[simp] theorem answer_cfg : (s.answer v).cfg = s.cfg := rfl
@[simp] theorem answer_grom : (s.answer v).grom = s.grom := rfl
@[simp] theorem answer_cursor : (s.answer v).cursor = s.cursor := rfl
@[simp] theorem answer_vbank : (s.answer v).vbank = s.vbank := rfl
@[simp] theorem answer_gbankOff0 : (s.answer v).gbankOff0 = s.gbankOff0 := rfl
@[simp] theorem answer_gbankOff1 : (s.answer v).gbankOff1 = s.gbankOff1 := rfl
@[simp] theorem answer_ctrlval : (s.answer v).ctrlval = s.ctrlval := rfl
@[simp] theorem answer_nvwe : (s.answer v).nvwe = s.nvwe := rfl
@[simp] theorem answer_sndack : (s.answer v).sndack = s.sndack := rfl
@[simp] theorem answer_paldirty : (s.answer v).paldirty = s.paldirty := rfl
@[simp] theorem answer_surfaceBound : (s.answer v).surfaceBound = s.surfaceBound := rfl
@[simp] theorem answer_pallatch : (s.answer v).pallatch = s.pallatch := rfl
@[simp] theorem answer_inRaw0 : (s.answer v).inRaw0 = s.inRaw0 := rfl
@[simp] theorem answer_inRaw1 : (s.answer v).inRaw1 = s.inRaw1 := rfl
@[simp] theorem answer_inRaw2 : (s.answer v).inRaw2 = s.inRaw2 := rfl
@[simp] theorem answer_dipRaw0 : (s.answer v).dipRaw0 = s.dipRaw0 := rfl
@[simp] theorem answer_dipRaw1 : (s.answer v).dipRaw1 = s.dipRaw1 := rfl
@[simp] theorem answer_insnap0 : (s.answer v).insnap0 = s.insnap0 := rfl
@[simp] theorem answer_insnap1 : (s.answer v).insnap1 = s.insnap1 := rfl
@[simp] theorem answer_insnap2 : (s.answer v).insnap2 = s.insnap2 := rfl
@[simp] theorem answer_dipsnap : (s.answer v).dipsnap = s.dipsnap := rfl
@[simp] theorem answer_resetPending : (s.answer v).resetPending = s.resetPending := rfl
@[simp] theorem answer_vram : (s.answer v).vram = s.vram := rfl
@[simp] theorem answer_palram : (s.answer v).palram = s.palram := rfl
@[simp] theorem answer_palcache : (s.answer v).palcache = s.palcache := rfl
@[simp] theorem answer_nvram : (s.answer v).nvram = s.nvram := rfl
@[simp] theorem answer_pixbuf : (s.answer v).pixbuf = s.pixbuf := rfl
@[simp] theorem answer_hostsurf : (s.answer v).hostsurf = s.hostsurf := rfl
@[simp] theorem answer_phase : (s.answer v).phase = s.phase := rfl
@[simp] theorem answer_slice : (s.answer v).slice = s.slice := rfl
@[simp] theorem answer_cycDone0 : (s.answer v).cycDone0 = s.cycDone0 := rfl
@[simp] theorem answer_cycDone1 : (s.answer v).cycDone1 = s.cycDone1 := rfl
@[simp] theorem answer_audDone : (s.answer v).audDone = s.audDone := rfl
@[simp] theorem answer_framecnt : (s.answer v).framecnt = s.framecnt := rfl
@[simp] theorem answer_frameGo : (s.answer v).frameGo = s.frameGo := rfl
@[simp] theorem answer_desc : (s.answer v).desc = s.desc := rfl
@[simp] theorem answer_ran : (s.answer v).ran = s.ran := rfl
@[simp] theorem answer_returned : (s.answer v).returned = s.returned := rfl
@[simp] theorem answer_grant : (s.answer v).grant = s.grant := rfl
@[simp] theorem answer_rdata : (s.answer v).rdata = some v := rfl
@[simp] theorem answer_saved : (s.answer v).saved = s.saved := rfl
@[simp] theorem answer_events : (s.answer v).events = s.events := rfl
@[simp] theorem answer_log : (s.answer v).log = s.log := rfl
@[simp] theorem answer_schedule : (s.answer v).schedule = s.schedule := rfl
@[simp] theorem answer_draw : (s.answer v).draw = s.draw := rfl
end

section
variable (s : State) (p : Phase)
@[simp] theorem goto_cfg : (s.goto p).cfg = s.cfg := rfl
@[simp] theorem goto_grom : (s.goto p).grom = s.grom := rfl
@[simp] theorem goto_cursor : (s.goto p).cursor = s.cursor := rfl
@[simp] theorem goto_vbank : (s.goto p).vbank = s.vbank := rfl
@[simp] theorem goto_gbankOff0 : (s.goto p).gbankOff0 = s.gbankOff0 := rfl
@[simp] theorem goto_gbankOff1 : (s.goto p).gbankOff1 = s.gbankOff1 := rfl
@[simp] theorem goto_ctrlval : (s.goto p).ctrlval = s.ctrlval := rfl
@[simp] theorem goto_nvwe : (s.goto p).nvwe = s.nvwe := rfl
@[simp] theorem goto_sndack : (s.goto p).sndack = s.sndack := rfl
@[simp] theorem goto_paldirty : (s.goto p).paldirty = s.paldirty := rfl
@[simp] theorem goto_surfaceBound : (s.goto p).surfaceBound = s.surfaceBound := rfl
@[simp] theorem goto_pallatch : (s.goto p).pallatch = s.pallatch := rfl
@[simp] theorem goto_inRaw0 : (s.goto p).inRaw0 = s.inRaw0 := rfl
@[simp] theorem goto_inRaw1 : (s.goto p).inRaw1 = s.inRaw1 := rfl
@[simp] theorem goto_inRaw2 : (s.goto p).inRaw2 = s.inRaw2 := rfl
@[simp] theorem goto_dipRaw0 : (s.goto p).dipRaw0 = s.dipRaw0 := rfl
@[simp] theorem goto_dipRaw1 : (s.goto p).dipRaw1 = s.dipRaw1 := rfl
@[simp] theorem goto_insnap0 : (s.goto p).insnap0 = s.insnap0 := rfl
@[simp] theorem goto_insnap1 : (s.goto p).insnap1 = s.insnap1 := rfl
@[simp] theorem goto_insnap2 : (s.goto p).insnap2 = s.insnap2 := rfl
@[simp] theorem goto_dipsnap : (s.goto p).dipsnap = s.dipsnap := rfl
@[simp] theorem goto_resetPending : (s.goto p).resetPending = s.resetPending := rfl
@[simp] theorem goto_vram : (s.goto p).vram = s.vram := rfl
@[simp] theorem goto_palram : (s.goto p).palram = s.palram := rfl
@[simp] theorem goto_palcache : (s.goto p).palcache = s.palcache := rfl
@[simp] theorem goto_nvram : (s.goto p).nvram = s.nvram := rfl
@[simp] theorem goto_pixbuf : (s.goto p).pixbuf = s.pixbuf := rfl
@[simp] theorem goto_hostsurf : (s.goto p).hostsurf = s.hostsurf := rfl
@[simp] theorem goto_phase : (s.goto p).phase = p := rfl
@[simp] theorem goto_slice : (s.goto p).slice = s.slice := rfl
@[simp] theorem goto_cycDone0 : (s.goto p).cycDone0 = s.cycDone0 := rfl
@[simp] theorem goto_cycDone1 : (s.goto p).cycDone1 = s.cycDone1 := rfl
@[simp] theorem goto_audDone : (s.goto p).audDone = s.audDone := rfl
@[simp] theorem goto_framecnt : (s.goto p).framecnt = s.framecnt := rfl
@[simp] theorem goto_frameGo : (s.goto p).frameGo = s.frameGo := rfl
@[simp] theorem goto_desc : (s.goto p).desc = s.desc := rfl
@[simp] theorem goto_ran : (s.goto p).ran = s.ran := rfl
@[simp] theorem goto_returned : (s.goto p).returned = s.returned := rfl
@[simp] theorem goto_grant : (s.goto p).grant = s.grant := rfl
@[simp] theorem goto_rdata : (s.goto p).rdata = s.rdata := rfl
@[simp] theorem goto_saved : (s.goto p).saved = s.saved := rfl
@[simp] theorem goto_events : (s.goto p).events = s.events := rfl
@[simp] theorem goto_log : (s.goto p).log = s.log := rfl
@[simp] theorem goto_schedule : (s.goto p).schedule = s.schedule := rfl
@[simp] theorem goto_draw : (s.goto p).draw = s.draw := rfl
end

section
variable (s : State) (p : Proc) (n : Nat)
@[simp] theorem setCycDone_cfg : (s.setCycDone p n).cfg = s.cfg := by cases p <;> rfl
@[simp] theorem setCycDone_grom : (s.setCycDone p n).grom = s.grom := by cases p <;> rfl
@[simp] theorem setCycDone_cursor : (s.setCycDone p n).cursor = s.cursor := by cases p <;> rfl
@[simp] theorem setCycDone_vbank : (s.setCycDone p n).vbank = s.vbank := by cases p <;> rfl
@[simp] theorem setCycDone_gbankOff0 : (s.setCycDone p n).gbankOff0 = s.gbankOff0 := by cases p <;> rfl
@[simp] theorem setCycDone_gbankOff1 : (s.setCycDone p n).gbankOff1 = s.gbankOff1 := by cases p <;> rfl
@[simp] theorem setCycDone_ctrlval : (s.setCycDone p n).ctrlval = s.ctrlval := by cases p <;> rfl
@[simp] theorem setCycDone_nvwe : (s.setCycDone p n).nvwe = s.nvwe := by cases p <;> rfl
@[simp] theorem setCycDone_sndack : (s.setCycDone p n).sndack = s.sndack := by cases p <;> rfl
@[simp] theorem setCycDone_paldirty : (s.setCycDone p n).paldirty = s.paldirty := by cases p <;> rfl
@[simp] theorem setCycDone_surfaceBound : (s.setCycDone p n).surfaceBound = s.surfaceBound := by cases p <;> rfl
@[simp] theorem setCycDone_pallatch : (s.setCycDone p n).pallatch = s.pallatch := by cases p <;> rfl
@[simp] theorem setCycDone_inRaw0 : (s.setCycDone p n).inRaw0 = s.inRaw0 := by cases p <;> rfl
@[simp] theorem setCycDone_inRaw1 : (s.setCycDone p n).inRaw1 = s.inRaw1 := by cases p <;> rfl
@[simp] theorem setCycDone_inRaw2 : (s.setCycDone p n).inRaw2 = s.inRaw2 := by cases p <;> rfl
@[simp] theorem setCycDone_dipRaw0 : (s.setCycDone p n).dipRaw0 = s.dipRaw0 := by cases p <;> rfl
@[simp] theorem setCycDone_dipRaw1 : (s.setCycDone p n).dipRaw1 = s.dipRaw1 := by cases p <;> rfl
@[simp] theorem setCycDone_insnap0 : (s.setCycDone p n).insnap0 = s.insnap0 := by cases p <;> rfl
@[simp] theorem setCycDone_insnap1 : (s.setCycDone p n).insnap1 = s.insnap1 := by cases p <;> rfl
@[simp] theorem setCycDone_insnap2 : (s.setCycDone p n).insnap2 = s.insnap2 := by cases p <;> rfl
@[simp] theorem setCycDone_dipsnap : (s.setCycDone p n).dipsnap = s.dipsnap := by cases p <;> rfl
@[simp] theorem setCycDone_resetPending : (s.setCycDone p n).resetPending = s.resetPending := by cases p <;> rfl
@[simp] theorem setCycDone_vram : (s.setCycDone p n).vram = s.vram := by cases p <;> rfl
@[simp] theorem setCycDone_palram : (s.setCycDone p n).palram = s.palram := by cases p <;> rfl
@[simp] theorem setCycDone_palcache : (s.setCycDone p n).palcache = s.palcache := by cases p <;> rfl
@[simp] theorem setCycDone_nvram : (s.setCycDone p n).nvram = s.nvram := by cases p <;> rfl
@[simp] theorem setCycDone_pixbuf : (s.setCycDone p n).pixbuf = s.pixbuf := by cases p <;> rfl
@[simp] theorem setCycDone_hostsurf : (s.setCycDone p n).hostsurf = s.hostsurf := by cases p <;> rfl
@[simp] theorem setCycDone_phase : (s.setCycDone p n).phase = s.phase := by cases p <;> rfl
@[simp] theorem setCycDone_slice : (s.setCycDone p n).slice = s.slice := by cases p <;> rfl
@[simp] theorem setCycDone_audDone : (s.setCycDone p n).audDone = s.audDone := by cases p <;> rfl
@[simp] theorem setCycDone_framecnt : (s.setCycDone p n).framecnt = s.framecnt := by cases p <;> rfl
@[simp] theorem setCycDone_frameGo : (s.setCycDone p n).frameGo = s.frameGo := by cases p <;> rfl
@[simp] theorem setCycDone_desc : (s.setCycDone p n).desc = s.desc := by cases p <;> rfl
@[simp] theorem setCycDone_ran : (s.setCycDone p n).ran = s.ran := by cases p <;> rfl
@[simp] theorem setCycDone_returned : (s.setCycDone p n).returned = s.returned := by cases p <;> rfl
@[simp] theorem setCycDone_grant : (s.setCycDone p n).grant = s.grant := by cases p <;> rfl
@[simp] theorem setCycDone_rdata : (s.setCycDone p n).rdata = s.rdata := by cases p <;> rfl
@[simp] theorem setCycDone_saved : (s.setCycDone p n).saved = s.saved := by cases p <;> rfl
@[simp] theorem setCycDone_events : (s.setCycDone p n).events = s.events := by cases p <;> rfl
@[simp] theorem setCycDone_log : (s.setCycDone p n).log = s.log := by cases p <;> rfl
@[simp] theorem setCycDone_schedule : (s.setCycDone p n).schedule = s.schedule := by cases p <;> rfl
@[simp] theorem setCycDone_draw : (s.setCycDone p n).draw = s.draw := by cases p <;> rfl
end

/-- The cycle counters after one of them is set. -/
@[simp] theorem cycDone_setCycDone (s : State) (p q : Proc) (n : Nat) :
    (s.setCycDone p n).cycDone q = if q = p then n else s.cycDone q := by
  cases p <;> cases q <;> rfl

end Sys2Proof.Machine
end

