-- ==== Sys2Proof/Laws/Frame.lean ====
section
/-! SUPPORT. The cycle targets, what a turn of a run step can do, when a processor is released, and what rendering and
the soft reset do. -/

namespace Sys2Proof

theorem Cfg.target_mono (c : Cfg) (p : Proc) {i j : Nat} (h : i ≤ j) : c.target p i ≤ c.target p j := by
  unfold Cfg.target
  exact Nat.div_le_div_right (Nat.mul_le_mul_left _ (by omega))

end Sys2Proof

namespace Sys2Proof.Machine

/-- A turn with a grant open counts the processor's return, within the bounds of R175, or notes how far the processor
has come. -/
theorem runGranted_cases (p : Proc) (after : Phase) (g : Grant) (s : State) :
    (s.returned = true ∧ ∃ ran, g.cycles ≤ ran ∧ ran ≤ g.cycles + s.cfg.overshootMax p ∧
      runGranted p after g s =
        { s.setCycDone p (s.cycDone p + ran) with grant := none, phase := after }) ∨
    (s.returned = false ∧ ∃ ran, ran ≤ g.cycles + s.cfg.overshootMax p ∧
      runGranted p after g s = { s with grant := some { g with ran := ran } }) := by
  unfold runGranted
  have hb : ranSoFar p g s ≤ g.cycles + s.cfg.overshootMax p := Nat.min_le_right _ _
  cases s.returned with
  | true => exact .inl ⟨rfl, max g.cycles (ranSoFar p g s), by omega, by omega, rfl⟩
  | false => exact .inr ⟨rfl, ranSoFar p g s, hb, rfl⟩

/-- Everything a turn of a run step can do: go on without a grant, or, with the grant that it makes or finds open,
count the processor's return and go on, or stay with what was executed noted (R175, R176). -/
theorem runStep_cases (p : Proc) (after : Phase) (s : State) :
    (s.grant = none ∧ s.cfg.target p s.slice ≤ s.cycDone p ∧ runStep p after s = s.goto after) ∨
    ∃ g events,
      ((s.grant = none ∧ 0 < g.cycles ∧ s.cycDone p + g.cycles = s.cfg.target p s.slice ∧ g.proc = p) ∨
        s.grant = some g) ∧
      ((s.returned = true ∧ ∃ ran, g.cycles ≤ ran ∧ ran ≤ g.cycles + s.cfg.overshootMax p ∧
          runStep p after s =
            { s.setCycDone p (s.cycDone p + ran) with grant := none, phase := after, events := events }) ∨
        (s.returned = false ∧ ∃ ran, ran ≤ g.cycles + s.cfg.overshootMax p ∧
          runStep p after s = { s with grant := some { g with ran := ran }, events := events })) := by
  unfold runStep
  cases hg : s.grant with
  | none =>
    dsimp only
    by_cases h : 0 < s.cfg.target p s.slice - s.cycDone p
    · rw [if_pos h]
      refine .inr ⟨⟨p, s.cfg.target p s.slice - s.cycDone p, 0⟩,
        s.events ++ [.run p (s.cfg.target p s.slice - s.cycDone p)], .inl ⟨rfl, h, by dsimp only; omega, rfl⟩, ?_⟩
      rcases runGranted_cases p after ⟨p, s.cfg.target p s.slice - s.cycDone p, 0⟩
          (s.emit (.run p (s.cfg.target p s.slice - s.cycDone p))) with ⟨hr, ran, h1, h2, e⟩ | ⟨hr, ran, h1, e⟩
      · exact .inl ⟨hr, ran, h1, h2, e.trans (by cases p <;> rfl)⟩
      · exact .inr ⟨hr, ran, h1, e⟩
    · exact .inl ⟨rfl, by omega, if_neg h⟩
  | some g =>
    refine .inr ⟨g, s.events, .inr rfl, ?_⟩
    rcases runGranted_cases p after g s with ⟨hr, ran, h1, h2, e⟩ | ⟨hr, ran, h1, e⟩
    · exact .inl ⟨hr, ran, h1, h2, e.trans (by cases p <;> rfl)⟩
    · exact .inr ⟨hr, ran, h1, e⟩

/-- A turn of a run step changes nothing but the grant, the phase, its processor's cycle counter and the events. -/
theorem runStep_frame (p : Proc) (after : Phase) (s : State) : ∃ n g ph events,
    runStep p after s = { s.setCycDone p n with grant := g, phase := ph, events := events } := by
  rcases runStep_cases p after s with ⟨_, _, e⟩ | ⟨g, events, _, ⟨_, ran, _, _, e⟩ | ⟨_, ran, _, e⟩⟩
  · exact ⟨s.cycDone p, s.grant, after, s.events, e.trans (by cases p <;> rfl)⟩
  · exact ⟨_, _, _, _, e⟩
  · exact ⟨s.cycDone p, _, s.phase, _, e.trans (by cases p <;> rfl)⟩

/-- A processor is released exactly while its grant is open and its request not yet executed (R187). -/
theorem stall_eq_false_iff (p : Proc) (s : State) :
    stall p s = false ↔ ∃ g, s.grant = some g ∧ g.proc = p ∧ g.ran < g.cycles := by
  unfold stall
  cases s.grant with
  | none => simp
  | some g => simp

/-- A grant to a processor is open (R175). -/
theorem grantOpen_iff (p : Proc) (s : State) : grantOpen p s = true ↔ ∃ g, s.grant = some g ∧ g.proc = p := by
  unfold grantOpen
  cases s.grant with
  | none => simp
  | some g => simp

/-- A render request is the only thing that rendering does, and it is made only for some samples (R179, R182). -/
theorem renderAudio_eq (n : Nat) (s : State) :
    renderAudio n s = { s with events := s.events ++ (if 0 < n then [.audioRender n] else []) } := by
  unfold renderAudio
  split
  · rfl
  · simp only [List.append_nil]

/-- Everything the soft reset does (R172, R206). -/
theorem softReset_eq (s : State) :
    softReset s = { s with
      cursor := 0, sndack := 0, resetPending := false, draw := s.draw + 1
      pallatch := Config.drawPallatch (s.draw + 1)
      events := s.events ++ [.procReset .p0, .procReset .p1] } := by
  simp only [softReset, resetCursor, State.emit, List.append_assoc, List.cons_append, List.nil_append]

end Sys2Proof.Machine
end

