-- ==== Sys2Proof/Laws/Memory.lean ====
section
/-! SUPPORT. The laws of one memory: read after write, read after fill, and the canonical form. -/

namespace Sys2Proof.Machine

variable {w : Nat}

theorem lookupCell_setCell (cells : List (Nat × BitVec w)) (i j : Nat) (v : BitVec w) :
    lookupCell (setCell cells i v) j = if j = i then some v else lookupCell cells j := by
  induction cells with
  | nil => simp only [setCell, lookupCell, eq_comm (a := i)]
  | cons head rest ih =>
    obtain ⟨a, u⟩ := head
    simp only [setCell]
    split
    · simp only [lookupCell, eq_comm (a := i)]
    · split
      · subst_vars
        simp only [lookupCell]
        by_cases h : a = j
        · simp [h]
        · simp [h, eq_comm (a := j)]
      · simp only [lookupCell, ih]
        by_cases h : a = j
        · subst h
          have : ¬ a = i := by omega
          simp [this]
        · simp [h]

/-- Read after write: the written cell holds the value, every other cell is as before. -/
@[simp] theorem readCell_writeCell (drawn : Nat → Nat → BitVec w) (m : Memory w) (i j : Nat) (v : BitVec w) :
    readCell drawn (writeCell m i v) j = if j = i then v else readCell drawn m j := by
  simp only [readCell, writeCell, lookupCell_setCell]
  split <;> rfl

@[simp] theorem writeCell_base (m : Memory w) (i : Nat) (v : BitVec w) : (writeCell m i v).base = m.base := rfl

theorem lookupCell_map_range (n k : Nat) (f : Nat → BitVec w) (j : Nat) :
    lookupCell ((List.range' k n).map fun i => (i, f i)) j = if k ≤ j ∧ j < k + n then some (f j) else none := by
  induction n generalizing k with
  | zero => simp only [List.range'_zero, List.map_nil, lookupCell]; rw [if_neg (by omega)]
  | succ n ih =>
    simp only [List.range'_succ, List.map_cons, lookupCell, ih]
    by_cases h : k = j
    · subst h; simp
    · simp only [h, if_false]
      congr 1
      apply propext
      omega

/-- Read after fill: every cell of the range holds its filled value. -/
theorem readCell_fillCells (drawn : Nat → Nat → BitVec w) (m : Memory w) (size : Nat) (f : Nat → BitVec w)
    {i : Nat} (h : i < size) : readCell drawn (fillCells m size f) i = f i := by
  simp only [readCell, fillCells, List.range_eq_range', lookupCell_map_range]
  simp [h]

theorem readCell_writeCells_other (drawn : Nat → Nat → BitVec w) (m : Memory w) (l : List (Nat × BitVec w)) (i : Nat)
    (h : ∀ p ∈ l, p.1 ≠ i) : readCell drawn (writeCells m l) i = readCell drawn m i := by
  induction l generalizing m with
  | nil => rfl
  | cons p rest ih =>
    obtain ⟨j, v⟩ := p
    have hj : i ≠ j := fun e => h (j, v) (by simp) e.symm
    rw [writeCells, ih _ fun q hq => h q (by simp [hq])]
    simp [hj]

/-! ### The canonical form -/

theorem risingCells_mono {size lo lo' : Nat} {cells : List (Nat × BitVec w)} (hl : lo' ≤ lo)
    (h : risingCells size lo cells = true) : risingCells size lo' cells = true := by
  cases cells with
  | nil => rfl
  | cons head rest =>
    simp only [risingCells, Bool.and_eq_true, decide_eq_true_eq] at h ⊢
    exact ⟨⟨by omega, h.1.2⟩, h.2⟩

theorem risingCells_setCell {size lo i : Nat} {cells : List (Nat × BitVec w)} (v : BitVec w) (hlo : lo ≤ i)
    (hi : i < size) (h : risingCells size lo cells = true) : risingCells size lo (setCell cells i v) = true := by
  induction cells generalizing lo with
  | nil => simp [setCell, risingCells, hlo, hi]
  | cons head rest ih =>
    obtain ⟨a, u⟩ := head
    simp only [risingCells, Bool.and_eq_true, decide_eq_true_eq] at h
    simp only [setCell]
    split
    · simp only [risingCells, Bool.and_eq_true, decide_eq_true_eq]
      exact ⟨⟨hlo, hi⟩, ⟨by omega, h.1.2⟩, h.2⟩
    · split
      · subst_vars
        simp only [risingCells, Bool.and_eq_true, decide_eq_true_eq]
        exact ⟨⟨hlo, hi⟩, h.2⟩
      · simp only [risingCells, Bool.and_eq_true, decide_eq_true_eq]
        exact ⟨h.1, ih (by omega) h.2⟩

/-- A write inside the memory keeps the canonical form. -/
theorem Memory_wf_writeCell {size : Nat} {m : Memory w} {i : Nat} (v : BitVec w) (hi : i < size)
    (h : m.wf size = true) : (writeCell m i v).wf size = true :=
  risingCells_setCell v (Nat.zero_le i) hi h

/-- A list of writes inside the memory keeps the canonical form. -/
theorem Memory_wf_writeCells {size : Nat} {m : Memory w} {l : List (Nat × BitVec w)} (hl : ∀ p ∈ l, p.1 < size)
    (h : m.wf size = true) : (writeCells m l).wf size = true := by
  induction l generalizing m with
  | nil => exact h
  | cons p rest ih =>
    exact ih (fun q hq => hl q (by simp [hq])) (Memory_wf_writeCell _ (hl p (by simp)) h)

theorem risingCells_map_range (n k : Nat) (f : Nat → BitVec w) :
    risingCells (k + n) k ((List.range' k n).map fun i => (i, f i)) = true := by
  induction n generalizing k with
  | zero => rfl
  | succ n ih =>
    have h := ih (k + 1)
    simp only [List.range'_succ, List.map_cons, risingCells, Bool.and_eq_true, decide_eq_true_eq]
    exact ⟨⟨le_refl k, by omega⟩, by rw [show k + (n + 1) = k + 1 + n by omega]; exact h⟩

/-- A fill has the canonical form, whatever stood there. -/
theorem Memory_wf_fillCells (m : Memory w) (size : Nat) (f : Nat → BitVec w) :
    (fillCells m size f).wf size = true := by
  have h := risingCells_map_range size 0 f
  simpa [Memory.wf, fillCells, List.range_eq_range'] using h

@[simp] theorem Memory_wf_empty (size base : Nat) : (⟨base, []⟩ : Memory w).wf size = true := rfl

end Sys2Proof.Machine
end

