-- ==== Sys2Proof/Laws/PerInstr.lean ====
section
/-! SUPPORT. For each operation: its record has the code that its row of the operation select table gives it (R73, R86,
R87). -/

namespace Sys2Proof.Laws.SelectCode

/-- The three formats of the table. -/
inductive Format where
  | bus | seq | env
  deriving DecidableEq, Repr

/-- Format, mask and value of a row. -/
structure Row where
  format : Format
  mask : BitVec 7
  value : BitVec 7
  deriving DecidableEq, Repr

/-- The row of an operation, as spec/opcode_table.json gives it. -/
def rowOf : Instr → Row
  | .dfltRd _ => ⟨.bus, 0x7C, 0x00⟩
  | .dfltWr _ _ => ⟨.bus, 0x7C, 0x40⟩
  | .vramRd _ => ⟨.bus, 0x7C, 0x04⟩
  | .vramWr _ _ => ⟨.bus, 0x7C, 0x44⟩
  | .nvramRd _ => ⟨.bus, 0x7C, 0x08⟩
  | .nvramWr _ _ => ⟨.bus, 0x7C, 0x48⟩
  | .nvweWr => ⟨.bus, 0x7C, 0x4C⟩
  | .inputRd0 => ⟨.bus, 0x7F, 0x10⟩
  | .inputRd1 => ⟨.bus, 0x7F, 0x11⟩
  | .inputRd2 => ⟨.bus, 0x7F, 0x12⟩
  | .dipRd => ⟨.bus, 0x7F, 0x13⟩
  | .palRd _ => ⟨.bus, 0x7C, 0x14⟩
  | .palWr _ _ => ⟨.bus, 0x7C, 0x54⟩
  | .protRd => ⟨.bus, 0x7C, 0x18⟩
  | .protWr _ => ⟨.bus, 0x7C, 0x58⟩
  | .ctrlWr _ => ⟨.bus, 0x7C, 0x5C⟩
  | .gromRd _ => ⟨.bus, 0x7C, 0x20⟩
  | .sndstRd _ => ⟨.bus, 0x7C, 0x24⟩
  | .sndlatchWr _ _ => ⟨.bus, 0x7C, 0x68⟩
  | .wdogWr => ⟨.bus, 0x7C, 0x6C⟩
  | .ftStart => ⟨.seq, 0xF, 0x0⟩
  | .ftRstchk => ⟨.seq, 0xF, 0x1⟩
  | .ftInsnap => ⟨.seq, 0xF, 0x2⟩
  | .ftClracc => ⟨.seq, 0xF, 0x3⟩
  | .ftRun0 => ⟨.seq, 0xF, 0x4⟩
  | .ftRun1 => ⟨.seq, 0xF, 0x5⟩
  | .ftScan => ⟨.seq, 0xF, 0x6⟩
  | .ftAudio => ⟨.seq, 0xF, 0x7⟩
  | .ftNext => ⟨.seq, 0xF, 0x8⟩
  | .ftFlush => ⟨.seq, 0xF, 0x9⟩
  | .ftPalrc => ⟨.seq, 0xF, 0xA⟩
  | .ftBlit => ⟨.seq, 0xF, 0xB⟩
  | .ftDone => ⟨.seq, 0xF, 0xC⟩
  | .hPoweron _ => ⟨.env, 0xF, 0x0⟩
  | .hResetreq => ⟨.env, 0xF, 0x1⟩
  | .hBind _ => ⟨.env, 0xF, 0x2⟩
  | .hDirty => ⟨.env, 0xF, 0x3⟩
  | .hInput _ _ _ _ _ => ⟨.env, 0xF, 0x4⟩
  | .hSave => ⟨.env, 0xF, 0x5⟩
  | .hRestore _ => ⟨.env, 0xF, 0x6⟩
  | .eDma _ => ⟨.env, 0xF, 0x7⟩
  | .eFmirq _ => ⟨.env, 0xF, 0x8⟩
  | .scanline _ => ⟨.env, 0xF, 0x9⟩
  | .protRst => ⟨.env, 0xF, 0xA⟩

/-- A record has the code of a row. -/
def HasCode (c : Cfg) : Record → Row → Prop
  | .bus t, r => r.format = .bus ∧ c.opselOf (busRw t) (busAddr t).toNat &&& r.mask = r.value
  | .seq p, r => r.format = .seq ∧ p.setWidth 7 &&& r.mask = r.value
  | .env code _, r => r.format = .env ∧ code.setWidth 7 &&& r.mask = r.value

/-- The record that encodes a well-formed operation has the code of its row. -/
def Statement (i : Instr) : Prop :=
  ∀ c : Cfg, c.wf = true → i.wellFormed c = true → HasCode c (encode c i) (rowOf i)

/-- The select code of the transaction that reaches a word offset of a handler. -/
theorem opselOf_encodeAt {c : Cfg} (hc : c.wf = true) {h : Handler} {rw : Bool} {k : Nat} (v : Word)
    (hk : k ≤ c.lastOffset h) (hd : h.admitsDir rw = true) {r : Row} (hf : r.format = .bus)
    (hr : (BitVec.ofBool rw ++ selectCode (some h) ++ BitVec.ofNat 2 k) &&& r.mask = r.value) :
    HasCode c (encodeAt c h rw k v) r := by
  refine ⟨hf, ?_⟩
  simp only [busRw_busRecord, busAddr_busRecord, Cfg.opselOf, Cfg.toNat_wordAddr hc hk,
    Cfg.select_wordAddr hc hk hd, Cfg.offsetOf, Cfg.wordOffset_wordAddr]
  exact hr

/-- The select code of a transaction whose handler stage 1 has found. -/
theorem opselOf_selected {c : Cfg} {h : Option Handler} {rw : Bool} {a : Addr} (v : Word)
    (hs : c.select a.toNat rw = h) {r : Row} (hf : r.format = .bus)
    (hr : (BitVec.ofBool rw ++ selectCode h ++ BitVec.ofNat 2 (c.offsetOf h a.toNat)) &&& r.mask = r.value) :
    HasCode c (.bus (busRecord rw a v)) r := by
  refine ⟨hf, ?_⟩
  simp only [busRw_busRecord, busAddr_busRecord, Cfg.opselOf, hs]
  exact hr

/-- The two low bits do not matter where the mask leaves them out. -/
theorem low_bits_masked {o : BitVec 5} {value : BitVec 7} (k : Nat)
    (h : ∀ q : BitVec 2, (o ++ q) &&& 0x7C = value) : (o ++ BitVec.ofNat 2 k) &&& 0x7C = value := h _

theorem dfltRd (a : Addr) : Statement (.dfltRd a) := fun _ _ hw =>
  opselOf_selected (h := none) 0 (by simpa [Instr.wellFormed] using hw) rfl
    (low_bits_masked _ (by simp only [rowOf]; decide))

theorem dfltWr (a : Addr) (v : Word) : Statement (.dfltWr a v) := fun _ _ hw =>
  opselOf_selected (h := none) v (by simpa [Instr.wellFormed] using hw) rfl
    (low_bits_masked _ (by simp only [rowOf]; decide))

theorem vramRd (k : Nat) : Statement (.vramRd k) := fun _ hc hw =>
  opselOf_encodeAt hc 0 (by simpa [Instr.wellFormed] using hw) rfl rfl
    (low_bits_masked _ (by simp only [rowOf]; decide))

theorem vramWr (k : Nat) (v : Word) : Statement (.vramWr k v) := fun _ hc hw =>
  opselOf_encodeAt hc v (by simpa [Instr.wellFormed] using hw) rfl rfl
    (low_bits_masked _ (by simp only [rowOf]; decide))

theorem nvramRd (k : Nat) : Statement (.nvramRd k) := fun _ hc hw =>
  opselOf_encodeAt hc 0 (by simpa [Instr.wellFormed] using hw) rfl rfl
    (low_bits_masked _ (by simp only [rowOf]; decide))

theorem nvramWr (k : Nat) (v : Word) : Statement (.nvramWr k v) := fun _ hc hw =>
  opselOf_encodeAt hc v (by simpa [Instr.wellFormed] using hw) rfl rfl
    (low_bits_masked _ (by simp only [rowOf]; decide))

theorem nvweWr : Statement .nvweWr := fun _ hc _ =>
  opselOf_encodeAt hc 0 (Nat.zero_le _) rfl rfl
    (low_bits_masked _ (by simp only [rowOf]; decide))

theorem inputRd0 : Statement .inputRd0 := fun _ hc _ =>
  opselOf_encodeAt hc 0 (Nat.zero_le _) rfl rfl (by decide)

theorem inputRd1 : Statement .inputRd1 := fun _ hc hw =>
  opselOf_encodeAt hc 0 (by simpa [Instr.wellFormed] using hw) rfl rfl (by decide)

theorem inputRd2 : Statement .inputRd2 := fun _ hc hw =>
  opselOf_encodeAt hc 0 (by simpa [Instr.wellFormed] using hw) rfl rfl (by decide)

theorem dipRd : Statement .dipRd := fun _ hc hw =>
  opselOf_encodeAt hc 0 (by simpa [Instr.wellFormed] using hw) rfl rfl (by decide)

theorem palRd (i : Nat) : Statement (.palRd i) := fun _ hc hw =>
  opselOf_encodeAt hc 0 (by simp only [Instr.wellFormed, Bool.and_eq_true, decide_eq_true_eq] at hw; exact hw.2)
    rfl rfl
    (low_bits_masked _ (by simp only [rowOf]; decide))

theorem palWr (i : Nat) (v : Word) : Statement (.palWr i v) := fun _ hc hw =>
  opselOf_encodeAt hc v (by simp only [Instr.wellFormed, Bool.and_eq_true, decide_eq_true_eq] at hw; exact hw.2)
    rfl rfl
    (low_bits_masked _ (by simp only [rowOf]; decide))

theorem protRd : Statement .protRd := fun _ hc _ =>
  opselOf_encodeAt hc 0 (Nat.zero_le _) rfl rfl
    (low_bits_masked _ (by simp only [rowOf]; decide))

theorem protWr (v : Word) : Statement (.protWr v) := fun _ hc _ =>
  opselOf_encodeAt hc v (Nat.zero_le _) rfl rfl
    (low_bits_masked _ (by simp only [rowOf]; decide))

theorem ctrlWr (v : Word) : Statement (.ctrlWr v) := fun _ hc _ =>
  opselOf_encodeAt hc v (Nat.zero_le _) rfl rfl
    (low_bits_masked _ (by simp only [rowOf]; decide))

theorem gromRd (k : Nat) : Statement (.gromRd k) := fun _ hc hw =>
  opselOf_encodeAt hc 0 (by simpa [Instr.wellFormed] using hw) rfl rfl
    (low_bits_masked _ (by simp only [rowOf]; decide))

theorem sndstRd (a : Addr) : Statement (.sndstRd a) := fun c hc hw => by
  simp only [Instr.wellFormed, Cfg.holds, Bool.and_eq_true, decide_eq_true_eq] at hw
  exact opselOf_selected (h := some .sndst) 0
    (Cfg.select_of_claims hc ((Cfg.claims_iff _ _ _).2 ⟨hw.1, hw.2, rfl⟩)) rfl
    (low_bits_masked _ (by simp only [rowOf]; decide))

theorem sndlatchWr (a : Addr) (v : Word) : Statement (.sndlatchWr a v) := fun c hc hw => by
  simp only [Instr.wellFormed, Cfg.holds, Bool.and_eq_true, decide_eq_true_eq] at hw
  exact opselOf_selected (h := some .sndlatch) v
    (Cfg.select_of_claims hc ((Cfg.claims_iff _ _ _).2 ⟨hw.1, hw.2, rfl⟩)) rfl
    (low_bits_masked _ (by simp only [rowOf]; decide))

theorem wdogWr : Statement .wdogWr := fun _ hc _ =>
  opselOf_encodeAt hc 0 (Nat.zero_le _) rfl rfl
    (low_bits_masked _ (by simp only [rowOf]; decide))

theorem ftStart : Statement .ftStart := fun _ _ _ => ⟨rfl, by simp only [rowOf]; decide⟩

theorem ftRstchk : Statement .ftRstchk := fun _ _ _ => ⟨rfl, by simp only [rowOf]; decide⟩

theorem ftInsnap : Statement .ftInsnap := fun _ _ _ => ⟨rfl, by simp only [rowOf]; decide⟩

theorem ftClracc : Statement .ftClracc := fun _ _ _ => ⟨rfl, by simp only [rowOf]; decide⟩

theorem ftRun0 : Statement .ftRun0 := fun _ _ _ => ⟨rfl, by simp only [rowOf]; decide⟩

theorem ftRun1 : Statement .ftRun1 := fun _ _ _ => ⟨rfl, by simp only [rowOf]; decide⟩

theorem ftScan : Statement .ftScan := fun _ _ _ => ⟨rfl, by simp only [rowOf]; decide⟩

theorem ftAudio : Statement .ftAudio := fun _ _ _ => ⟨rfl, by simp only [rowOf]; decide⟩

theorem ftNext : Statement .ftNext := fun _ _ _ => ⟨rfl, by simp only [rowOf]; decide⟩

theorem ftFlush : Statement .ftFlush := fun _ _ _ => ⟨rfl, by simp only [rowOf]; decide⟩

theorem ftPalrc : Statement .ftPalrc := fun _ _ _ => ⟨rfl, by simp only [rowOf]; decide⟩

theorem ftBlit : Statement .ftBlit := fun _ _ _ => ⟨rfl, by simp only [rowOf]; decide⟩

theorem ftDone : Statement .ftDone := fun _ _ _ => ⟨rfl, by simp only [rowOf]; decide⟩

theorem hPoweron (p : PowerOn) : Statement (.hPoweron p) := fun _ _ _ => ⟨rfl, by simp only [rowOf]; decide⟩

theorem hResetreq : Statement .hResetreq := fun _ _ _ => ⟨rfl, by simp only [rowOf]; decide⟩

theorem hBind (b : Bool) : Statement (.hBind b) := fun _ _ _ => ⟨rfl, by simp only [rowOf]; decide⟩

theorem hDirty : Statement .hDirty := fun _ _ _ => ⟨rfl, by simp only [rowOf]; decide⟩

theorem hInput (i0 : Word) (i1 : Word) (i2 : Word) (d0 : Byte) (d1 : Byte) : Statement (.hInput i0 i1 i2 d0 d1) :=
  fun _ _ _ => ⟨rfl, by simp only [rowOf]; decide⟩

theorem hSave : Statement .hSave := fun _ _ _ => ⟨rfl, by simp only [rowOf]; decide⟩

theorem hRestore (img : SavedImage) : Statement (.hRestore img) := fun _ _ _ => ⟨rfl, by simp only [rowOf]; decide⟩

theorem eDma (m : DmaMove) : Statement (.eDma m) := fun _ _ _ => ⟨rfl, by simp only [rowOf]; decide⟩

theorem eFmirq (level : Bool) : Statement (.eFmirq level) := fun _ _ _ => ⟨rfl, by simp only [rowOf]; decide⟩

theorem scanline (d : Desc) : Statement (.scanline d) := fun _ _ _ => ⟨rfl, by simp only [rowOf]; decide⟩

theorem protRst : Statement .protRst := fun _ _ _ => ⟨rfl, by simp only [rowOf]; decide⟩

end Sys2Proof.Laws.SelectCode
end

