-- ==== Sys2Proof/Laws/Restore.lean ====
section
/-! SUPPORT. When two configurations are the same, and which images a restore takes. -/

namespace Sys2Proof

/-- The canonical form is the order of the list together with the size. -/
theorem Memory.wf_iff {w : Nat} (size : Nat) (m : Memory w) :
    m.wf size = true ↔ m.ordered = true ∧ m.fits size = true := by
  unfold Memory.wf Memory.ordered Memory.fits
  generalize (0 : Nat) = lo
  induction m.cells generalizing lo with
  | nil => simp [Machine.risingCells, Machine.risingFrom]
  | cons cell rest ih =>
    simp only [Machine.risingCells, Machine.risingFrom, List.all_cons, Bool.and_eq_true, ih]
    tauto

/-- What `fits` says. -/
theorem Memory.fits_iff {w : Nat} (size : Nat) (m : Memory w) :
    m.fits size = true ↔ ∀ cell ∈ m.cells, cell.1 < size := by
  simp [Memory.fits]

theorem Budget.same_iff (a b : Budget) :
    a.same b = true ↔ a = b ∨ (0 < a.den ∧ 0 < b.den ∧ a.num * b.den = b.num * a.den) := by
  simp [Budget.same, and_assoc]

theorem ColorMap.same_iff (a b : ColorMap) :
    a.same b = true ↔ ∀ v : Word, mapColor a (v.setWidth 15) = mapColor b (v.setWidth 15) := by
  simp only [ColorMap.same, Bool.or_eq_true, decide_eq_true_eq, List.all_eq_true, List.mem_range, beq_iff_eq]
  constructor
  · rintro (rfl | h) v
    · rfl
    · have := h (v.setWidth 15 : BitVec 15).toNat (BitVec.isLt _)
      rwa [BitVec.ofNat_toNat, BitVec.setWidth_eq] at this
  · intro h
    refine .inr fun n hn => ?_
    have := h (BitVec.ofNat 16 n)
    have e : (BitVec.ofNat 16 n).setWidth 15 = BitVec.ofNat 15 n := by
      apply BitVec.eq_of_toNat_eq
      simp only [BitVec.toNat_setWidth, BitVec.toNat_ofNat]
      omega
    rwa [e] at this

namespace Machine

/-- The comparison of configurations compares the values of their parameters. -/
theorem cfg_same_iff (c d : Cfg) : c.same d = true ↔ Cfg.sameParameters c d := by
  simp only [Cfg.same, Cfg.sameParameters, Bool.and_eq_true, decide_eq_true_eq, Budget.same_iff, ColorMap.same_iff,
    Cfg.colorOf]
  constructor
  · rintro ⟨⟨⟨h, h0⟩, h1⟩, hc⟩
    exact ⟨h, fun p => by cases p <;> assumption, hc⟩
  · rintro ⟨h, hb, hc⟩
    exact ⟨⟨⟨h, hb .p0⟩, hb .p1⟩, hc⟩

/-- The images that a restore takes (93 U17). -/
theorem imageFits_iff (c : Cfg) (img : SavedImage) :
    imageFits c img = true ↔ Cfg.sameParameters img.cfg c ∧ img.nvram.fits c.nvramBytes = true ∧
      img.palram.fits c.palEntries = true ∧ img.palcache.fits c.palEntries = true ∧
      img.vram.fits c.vramWords = true := by
  simp only [imageFits, Bool.and_eq_true, cfg_same_iff, and_assoc]

/-- The sizes of the memories belong to the values that are compared. -/
theorem sizes_of_same {c d : Cfg} (h : Cfg.sameParameters c d) :
    c.nvramBytes = d.nvramBytes ∧ c.palEntries = d.palEntries ∧ c.vramWords = d.vramWords := by
  rw [h.1]
  exact ⟨rfl, rfl, rfl⟩

end Machine

end Sys2Proof
end

