-- ==== Sys2Proof/Laws/Step.lean ====
section
/-! SUPPORT. What one step can do, said once, runs of steps, and the reading of the protection table. -/

namespace Sys2Proof.Machine

/-- A turn changes nothing but the schedule and the sequencer's input ports. -/
theorem fetch_frame (s : State) : ∃ l fg d r b,
    (fetch s).2 = { s with schedule := l, frameGo := fg, desc := d, ran := r, returned := b } := by
  unfold fetch
  split
  · exact ⟨s.schedule, s.frameGo, s.desc, s.ran, s.returned, rfl⟩
  · exact ⟨_, _, _, _, _, rfl⟩
  · exact ⟨_, s.frameGo, s.desc, s.ran, s.returned, rfl⟩
  · exact ⟨_, s.frameGo, s.desc, s.ran, s.returned, rfl⟩

/-- A step that answers a next state performed a well-formed operation in its window. -/
theorem step_next {s t : State} (h : step s = .next t) : ∃ i u,
    decode s.cfg (fetch s).1 = .ok i ∧ i.wellFormed s.cfg = true ∧ windowOpen s (turnWindow i) = true ∧
      exec i (fetch s).2 = .next u ∧ t = settle (turnWindow i) u := by
  unfold step at h
  split at h
  · cases h
  · next i hd =>
    split at h
    · next hw =>
      split at h
      · next ho =>
        cases he : exec i (fetch s).2 with
        | next u =>
          rw [he] at h
          simp only [finish, Host.Outcome.next.injEq] at h
          exact ⟨i, u, hd, hw, ho, he, h.symm⟩
        | fault r => rw [he] at h; cases h
        | refused r => rw [he] at h; cases h
      · cases h
    · cases h

/-- The sequencer's record is always a step. -/
theorem decodeSeq_phaseCode (p : Phase) : ∃ i, decodeSeq (phaseCode p) = .ok i ∧ turnWindow i = .sequencer := by
  cases p <;> exact ⟨_, rfl, rfl⟩

/-- A turn other than a line in phase `SCAN` adds nothing to its operation. -/
theorem finish_of_ne_scan {w : Window} (h : w ≠ .scan) (o : Host.Outcome State Fault Refusal) : finish w o = o := by
  cases o <;> cases w <;> first | rfl | exact absurd rfl h

/-- A well-formed operation in its window is performed. -/
theorem step_of_open {s : State} {i : Instr} (hd : decode s.cfg (fetch s).1 = .ok i)
    (hw : i.wellFormed s.cfg = true) (ho : windowOpen s (turnWindow i) = true) :
    step s = finish (turnWindow i) (exec i (fetch s).2) := by
  simp only [step, hd, hw, ho, if_true]

/-- A well-formed operation out of its window is refused. -/
theorem step_of_closed {s : State} {i : Instr} (hd : decode s.cfg (fetch s).1 = .ok i)
    (hw : i.wellFormed s.cfg = true) (ho : windowOpen s (turnWindow i) = false) :
    step s = .refused .outOfOrder := by
  simp only [step, hd, hw, ho, if_true, Bool.false_eq_true, if_false]

/-- Every bus operation belongs inside a grant to the primary processor. -/
theorem window_of_decodeBus {c : Cfg} {t : BitVec 49} {i : Instr} (h : decodeBus c t = .ok i) :
    turnWindow i = .grant0 := by
  unfold decodeBus at h
  split at h
  · cases h
  · next op _ => cases h; cases op <;> rfl

/-- The operations of the sequencer's codes are steps and have no operand that could be ill-formed. -/
theorem window_of_decodeSeq {p : BitVec 4} {i : Instr} (h : decodeSeq p = .ok i) :
    turnWindow i = .sequencer ∧ ∀ c : Cfg, i.wellFormed c = true := by
  unfold decodeSeq at h
  split at h <;> cases h <;> exact ⟨rfl, fun _ => rfl⟩

/-- With nothing scheduled, the step of the phase performs its operation and adds nothing. -/
theorem step_of_sequencer {s t : State} {i : Instr} (hs : s.schedule = [])
    (hd : decodeSeq (phaseCode s.phase) = .ok i) (he : exec i s = .next t) : step s = .next t := by
  have hf : fetch s = (.seq (phaseCode s.phase), s) := by simp [fetch, hs]
  obtain ⟨hw, hwf⟩ := window_of_decodeSeq hd
  rw [step_of_open (i := i) (by rw [hf]; exact hd) (hwf _) (by simp [hw, windowOpen, raisesFrameGo, hs]),
    finish_of_ne_scan (by simp [hw]), hf, he]

/-- One step as a run. -/
theorem run_one {s t : State} (h : step s = .next t) : Sys2Proof.core.run 1 s = .next t := by
  have h' : Sys2Proof.core.step s = .next t := h
  simp only [Host.Core.run, h']

/-- Runs one after the other. -/
theorem run_add {m n : Nat} {s t u : State} (h : Sys2Proof.core.run m s = .next t)
    (h' : Sys2Proof.core.run n t = .next u) : Sys2Proof.core.run (m + n) s = .next u := by
  induction m generalizing s with
  | zero => cases h; rw [Nat.zero_add]; exact h'
  | succ m ih =>
    rw [show m + 1 + n = (m + n) + 1 by omega]
    simp only [Host.Core.run] at h ⊢
    cases hs : Sys2Proof.core.step s with
    | next v => rw [hs] at h; exact ih h
    | fault r => rw [hs] at h; cases h
    | refused r => rw [hs] at h; cases h

/-- The first match is in the list, and no earlier byte equals the key (R132). -/
theorem firstMatch_spec (key : Nat) (l : List Byte) (j : Nat) :
    match firstMatch key l j with
    | none => ∀ b ∈ l, b.toNat ≠ key
    | some m => ∃ n, m = j + n ∧ (∃ b, l[n]? = some b ∧ b.toNat = key) ∧
        ∀ n' < n, ∀ b, l[n']? = some b → b.toNat ≠ key := by
  induction l generalizing j with
  | nil => simp [firstMatch]
  | cons b rest ih =>
    simp only [firstMatch]
    by_cases hb : b.toNat = key
    · rw [if_pos hb]
      exact ⟨0, rfl, ⟨b, rfl, hb⟩, fun n' h => by omega⟩
    · rw [if_neg hb]
      have h := ih (j + 1)
      cases hf : firstMatch key rest (j + 1) with
      | none =>
        rw [hf] at h
        intro b' hb'
        rcases List.mem_cons.1 hb' with rfl | hb'
        · exact hb
        · exact h b' hb'
      | some m =>
        rw [hf] at h
        obtain ⟨n, hm, hn, hall⟩ := h
        refine ⟨n + 1, by omega, hn, ?_⟩
        intro n' hn' b' hb'
        cases n' with
        | zero => simp only [List.getElem?_cons_zero, Option.some.injEq] at hb'; subst hb'; exact hb
        | succ n' => exact hall n' (by omega) b' (by simpa using hb')

/-- A challenge leaves the cursor inside the table. -/
theorem protCursor_lt (c : Cfg) (v : Word) (h : 0 < c.protTable.length) :
    protCursor c v < c.protTable.length := by
  have hs := firstMatch_spec (protKey c v) c.protTable 0
  unfold protCursor
  cases hf : firstMatch (protKey c v) c.protTable 0 with
  | none => simpa using h
  | some m =>
    rw [hf] at hs
    obtain ⟨n, hm, ⟨b, hb, -⟩, -⟩ := hs
    have := (List.getElem?_eq_some_iff.1 hb).1
    simp only [Option.getD_some]
    omega

end Sys2Proof.Machine
end

