-- ==== Sys2Proof/Laws/Video.lean ====
section
/-! SUPPORT. What the scanline interpreter, the recalculation and the blit do, said once. -/

namespace Sys2Proof.Machine

theorem surfaceIndex_inj {w y y' x x' : Nat} (hx : x < w) (hx' : x' < w)
    (h : surfaceIndex w y x = surfaceIndex w y' x') : y = y' ∧ x = x' := by
  simp only [surfaceIndex] at h
  have hy : y = y' := by
    have h1 : (y * w + x) / w = y := by rw [Nat.mul_comm, Nat.mul_add_div (by omega), Nat.div_eq_of_lt hx, Nat.add_zero]
    have h2 : (y' * w + x') / w = y' := by
      rw [Nat.mul_comm, Nat.mul_add_div (by omega), Nat.div_eq_of_lt hx', Nat.add_zero]
    rw [← h1, ← h2, h]
  subst hy
  exact ⟨rfl, by omega⟩

theorem surfaceIndex_lt {w h y x : Nat} (hy : y < h) (hx : x < w) : surfaceIndex w y x < h * w := by
  have : (y + 1) * w ≤ h * w := Nat.mul_le_mul_right w hy
  simp only [surfaceIndex]
  rw [Nat.add_mul] at this
  omega

/-- The loop writes the row buffer and nothing else. -/
theorem scanLine_frame (d : Desc) (n x col : Nat) (s : State) :
    ∃ m, scanLine d n x col s = { s with pixbuf := m } := by
  induction n generalizing x col s with
  | zero => exact ⟨s.pixbuf, rfl⟩
  | succ n ih =>
    simp only [scanLine]
    split
    · exact ih (x + 1) (col + 1)
        { s with
          pixbuf := writeCell s.pixbuf (surfaceIndex s.cfg.screenW d.rowAddress.toNat (x - d.leftBlank.toNat))
            (significantBits (s.readVram (columnWord (rowBase s.cfg d) col))) }
    · exact ih (x + 1) (col + 1) s

/-- What the loop leaves in cell `j` of row `y`: pixel `j` of the line if the loop reaches it, else what stood
there. -/
theorem readPixbuf_scanLine (d : Desc) (n x col : Nat) (s : State) (hx : d.leftBlank.toNat ≤ x) (y j : Nat)
    (hj : j < s.cfg.screenW) :
    (scanLine d n x col s).readPixbuf y j =
      if y = d.rowAddress.toNat ∧ x - d.leftBlank.toNat ≤ j ∧ j < x - d.leftBlank.toNat + n then
        significantBits (s.readVram (columnWord (rowBase s.cfg d) (col + (j - (x - d.leftBlank.toNat)))))
      else s.readPixbuf y j := by
  induction n generalizing x col s with
  | zero =>
    simp only [scanLine]
    rw [if_neg (by omega)]
  | succ n ih =>
    simp only [scanLine]
    split
    · next hw =>
      rw [ih (x + 1) (col + 1)
        { s with
          pixbuf := writeCell s.pixbuf (surfaceIndex s.cfg.screenW d.rowAddress.toNat (x - d.leftBlank.toNat))
            (significantBits (s.readVram (columnWord (rowBase s.cfg d) col))) } (by omega) hj]
      simp only [State.readPixbuf, State.readVram, readCell_writeCell]
      by_cases hy : y = d.rowAddress.toNat
      · subst hy
        by_cases h0 : j = x - d.leftBlank.toNat
        · subst h0
          rw [if_neg (by omega), if_pos rfl, if_pos (by omega)]
          simp
        · have hne : ¬ surfaceIndex s.cfg.screenW d.rowAddress.toNat j =
              surfaceIndex s.cfg.screenW d.rowAddress.toNat (x - d.leftBlank.toNat) :=
            fun e => h0 (surfaceIndex_inj hj hw e).2
          by_cases h1 : x - d.leftBlank.toNat ≤ j ∧ j < x - d.leftBlank.toNat + (n + 1)
          · rw [if_pos (by omega), if_pos (by omega)]
            congr 3
            omega
          · rw [if_neg (by omega), if_neg hne, if_neg (by omega)]
      · have hne : ¬ surfaceIndex s.cfg.screenW y j =
            surfaceIndex s.cfg.screenW d.rowAddress.toNat (x - d.leftBlank.toNat) :=
          fun e => hy (surfaceIndex_inj hj hw e).1
        rw [if_neg (by omega), if_neg hne, if_neg (by omega)]
    · next hw =>
      rw [ih (x + 1) (col + 1) s (by omega) hj]
      rw [if_neg (by omega), if_neg (by omega)]

theorem pixbuf_wf_scanLine (d : Desc) (n x col : Nat) (s : State) (hrow : d.rowAddress.toNat < s.cfg.screenH)
    (h : s.pixbuf.wf (s.cfg.screenH * s.cfg.screenW) = true) :
    (scanLine d n x col s).pixbuf.wf (s.cfg.screenH * s.cfg.screenW) = true := by
  induction n generalizing x col s with
  | zero => exact h
  | succ n ih =>
    simp only [scanLine]
    split
    · next hw =>
      exact ih _ _
        { s with
          pixbuf := writeCell s.pixbuf (surfaceIndex s.cfg.screenW d.rowAddress.toNat (x - d.leftBlank.toNat))
            (significantBits (s.readVram (columnWord (rowBase s.cfg d) col))) }
        hrow (Memory_wf_writeCell _ (surfaceIndex_lt hrow hw) h)
    · exact ih _ _ s hrow h

/-- SCANLINE writes the row buffer and nothing else. -/
theorem drawLine_frame (d : Desc) (s : State) : ∃ m, drawLine d s = { s with pixbuf := m } := by
  unfold drawLine
  split
  · exact ⟨s.pixbuf, rfl⟩
  · split
    · exact ⟨s.pixbuf, rfl⟩
    · exact scanLine_frame ..

/-- What SCANLINE leaves in cell `j` of row `y` (R146, R148). -/
theorem readPixbuf_drawLine (d : Desc) (s : State) (y j : Nat) (hj : j < s.cfg.screenW) :
    (drawLine d s).readPixbuf y j =
      if s.surfaceBound = true ∧ y = d.rowAddress.toNat ∧ y < s.cfg.screenH ∧
          j < d.rightBlank.toNat - d.leftBlank.toNat then
        significantBits (s.readVram (columnWord (rowBase s.cfg d) (firstColumn s.cfg d + j)))
      else s.readPixbuf y j := by
  unfold drawLine
  split
  · next h => rw [if_neg (by simp [h])]
  · next h =>
    split
    · next hr => rw [if_neg (by omega)]
    · next hr =>
      rw [readPixbuf_scanLine _ _ _ _ _ (le_refl _) _ _ hj]
      simp only [Nat.sub_self, Nat.zero_le, Nat.zero_add, Nat.sub_zero, true_and]
      have hb : s.surfaceBound = true := by simpa using h
      congr 1
      apply propext
      constructor
      · rintro ⟨h1, h2⟩; exact ⟨hb, h1, by omega, h2⟩
      · rintro ⟨-, h1, -, h2⟩; exact ⟨h1, h2⟩

theorem pixbuf_wf_drawLine (d : Desc) (s : State)
    (h : s.pixbuf.wf (s.cfg.screenH * s.cfg.screenW) = true) :
    (drawLine d s).pixbuf.wf (s.cfg.screenH * s.cfg.screenW) = true := by
  unfold drawLine
  split
  · exact h
  · split
    · exact h
    · exact pixbuf_wf_scanLine _ _ _ _ _ (by omega) h

/-- After the recalculation every cached colour is the colour of its raw entry (R150). -/
theorem readPalcache_recalcPalette (s : State) {i : Nat} (h : i < s.cfg.palEntries) :
    (recalcPalette s).readPalcache i = s.cfg.colorOf (s.readPalram i) :=
  readCell_fillCells _ _ _ _ h

/-- After the blit every cell of the surface shows its row-buffer value through the palette cache (R152). -/
theorem readHostsurf_blitSurface (s : State) {y x : Nat} (hy : y < s.cfg.screenH) (hx : x < s.cfg.screenW) :
    (blitSurface s).readHostsurf y x = s.readPalcache (pixelIndex s.cfg (s.readPixbuf y x)) :=
  readCell_fillCells _ _ _ _ (surfaceIndex_lt hy hx)

end Sys2Proof.Machine
end

