-- ==== Sys2Proof/Tests/Slice0.lean ====
section
/-! SUPPORT. The model's own tests.  Words and expected values come from spec/95_test_vectors.md and the examples of
the rules; the witnesses at the end meet the hypotheses of the statements in Certificates/Slice0. -/

namespace Sys2Proof.Tests

open Sys2Proof.Machine

-- the kernel evaluates one test after another
set_option Elab.async false

/-! ### Helpers -/

/-- The next state, if there is one. -/
def nextOf : Host.Outcome State Fault Refusal → Option State
  | .next s => some s
  | .fault _ => none
  | .refused _ => none

/-- The refusal, if there is one. -/
def refusalOf : Host.Outcome State Fault Refusal → Option Refusal
  | .next _ => none
  | .fault _ => none
  | .refused r => some r

/-- After power-on under `c`. -/
def fresh (c : Cfg) : State := State.initial c ⟨0, []⟩ none 0

/-- Inside a grant to the primary processor. -/
def inGrant (c : Cfg) : State := { fresh c with phase := .run0, grant := some ⟨.p0, 1, 0⟩ }

/-- One step with a bus transaction next. -/
def busStep (s : State) (t : BitVec 49) : Option State := nextOf (step { s with schedule := [.bus t] })

/-- What the read of a transaction returns. -/
def readBack (s : State) (t : BitVec 49) : Option Word := (busStep s t).bind State.rdata

/-- One step with an outside move next. -/
def envStep (s : State) (code : BitVec 4) (arg : EnvArg) : Option State :=
  nextOf (step { s with schedule := [.env code arg] })

/-- One step of the sequencer with its ports as they stand. -/
def seqStep (s : State) : Option State := nextOf (step { s with schedule := [] })

/-- SMALLCFG with a surface bound. -/
def bound : State := { fresh smallCfg with surfaceBound := true }

/-! ### Configurations (R7; 92_eei_decisions.md section 2) -/

theorem test_refCfg_wf : refCfg.wf = true := by decide +kernel
theorem test_smallCfg_wf : smallCfg.wf = true := by decide +kernel
theorem test_overlap_refused : Cfg.wf { refCfg with ctrlRange := refCfg.nvweRange } = false := by decide +kernel
theorem test_misplaced_range_refused : Cfg.wf { refCfg with wdogRange := ⟨0x01D81078, 0x01D8107F⟩ } = false := by
  decide +kernel
theorem test_nvram_window_refused : Cfg.wf { refCfg with nvramBytes := 0x3FFE } = false := by decide +kernel
theorem test_grom_window_refused : Cfg.wf { refCfg with gromHighOffset := 0x200002 } = false := by decide +kernel
theorem test_input_window_refused : Cfg.wf { refCfg with inputRange := ⟨0x01600000, 0x0160004F⟩ } = false := by
  decide +kernel
theorem test_empty_table_refused : Cfg.wf { refCfg with protTable := [] } = false := by decide +kernel
theorem test_vram_size_refused : Cfg.wf { refCfg with vramWords := 0x80001 } = false := by decide +kernel
theorem test_sound_words_refused : Cfg.wf { refCfg with sndNotready := 0 } = false := by decide +kernel
theorem test_no_slices_refused : Cfg.wf { refCfg with sliceCount := 0 } = false := by decide +kernel

/-! ### WellFormed: for each check a term that it refuses -/

/-- REFCFG with an input window of one word and a palette window of two. -/
def narrow : Cfg :=
  { refCfg with inputRange := ⟨0x01600000, 0x0160000F⟩, palRange := ⟨0x01800000, 0x0180001F⟩ }

theorem test_narrow_wf : narrow.wf = true := by decide +kernel
theorem test_illFormed_dfltRd : Instr.wellFormed refCfg (.dfltRd 0x01B00000) = false := by decide +kernel
theorem test_illFormed_dfltWr : Instr.wellFormed refCfg (.dfltWr 0x01D81070 0) = false := by decide +kernel
theorem test_illFormed_vramRd : Instr.wellFormed refCfg (.vramRd 0x40000) = false := by decide +kernel
theorem test_illFormed_vramWr : Instr.wellFormed refCfg (.vramWr 0x40000 0) = false := by decide +kernel
theorem test_illFormed_nvramRd : Instr.wellFormed refCfg (.nvramRd 0x2000) = false := by decide +kernel
theorem test_illFormed_nvramWr : Instr.wellFormed refCfg (.nvramWr 0x2000 0) = false := by decide +kernel
theorem test_illFormed_inputRd1 : Instr.wellFormed narrow .inputRd1 = false := by decide +kernel
theorem test_illFormed_inputRd2 : Instr.wellFormed narrow .inputRd2 = false := by decide +kernel
theorem test_illFormed_dipRd : Instr.wellFormed narrow .dipRd = false := by decide +kernel
theorem test_illFormed_palRd : Instr.wellFormed refCfg (.palRd 0x8000) = false := by decide +kernel
theorem test_illFormed_palRd_unreached : Instr.wellFormed narrow (.palRd 2) = false := by decide +kernel
theorem test_illFormed_palWr : Instr.wellFormed refCfg (.palWr 0x8000 0) = false := by decide +kernel
theorem test_illFormed_palWr_unreached : Instr.wellFormed narrow (.palWr 2 0) = false := by decide +kernel
theorem test_illFormed_gromRd : Instr.wellFormed refCfg (.gromRd 0x100000) = false := by decide +kernel
theorem test_illFormed_sndstRd : Instr.wellFormed refCfg (.sndstRd 0x01D00020) = false := by decide +kernel
theorem test_illFormed_sndlatchWr : Instr.wellFormed refCfg (.sndlatchWr 0x01D0101F 0) = false := by decide +kernel
theorem test_illFormed_eDma : Instr.wellFormed refCfg (.eDma ⟨[(0, 1), (0x80000, 1)], none⟩) = false := by
  decide +kernel
/-- A cell listed twice, and a bank offset that R23 excludes: no save produces them. -/
theorem test_illFormed_hRestore :
    let plain : SavedImage := ⟨refCfg, ⟨0, []⟩, ⟨0, []⟩, ⟨0, []⟩, ⟨0, []⟩, false, 0, 0, 0, false, 0⟩
    Instr.wellFormed refCfg (.hRestore { plain with nvram := ⟨0, [(1, 0), (1, 1)]⟩ }) = false ∧
    Instr.wellFormed refCfg (.hRestore { plain with gbankOff0 := 2 }) = false ∧
    Instr.wellFormed refCfg (.hRestore plain) = true := by decide +kernel
theorem test_illFormed_hPoweron_grom :
    Instr.wellFormed refCfg (.hPoweron ⟨refCfg, ⟨0, [(0x400000, 1)]⟩, none⟩) = false := by
  decide +kernel
theorem test_illFormed_hPoweron_nvram :
    Instr.wellFormed refCfg (.hPoweron ⟨refCfg, ⟨0, []⟩, some ⟨0, [(1, 1), (0, 1)]⟩⟩) = false := by decide +kernel

/-! ### Decode, format BUS: transactions of 95_test_vectors.md 2.1 and 3 under REFCFG -/

theorem test_decode_dfltRd : decode refCfg (.bus 0x0004000000000) = .ok (.dfltRd 0x00400000) := by decide +kernel
theorem test_decode_dfltRd_writeOnly : decode refCfg (.bus 0x001F000000000) = .ok (.dfltRd 0x01F00000) := by decide +kernel
theorem test_decode_dfltRd_top : decode refCfg (.bus 0x0FFFFFFFF0000) = .ok (.dfltRd 0xFFFFFFFF) := by decide +kernel
theorem test_decode_dfltWr : decode refCfg (.bus 0x1015000001234) = .ok (.dfltWr 0x01500000 0x1234) := by decide +kernel
theorem test_decode_dfltWr_readOnly : decode refCfg (.bus 0x1016000001234) = .ok (.dfltWr 0x01600000 0x1234) := by
  decide +kernel
theorem test_decode_vramRd : decode refCfg (.bus 0x0000000000000) = .ok (.vramRd 0) := by decide +kernel
theorem test_decode_vramWr : decode refCfg (.bus 0x1003FFFFF1234) = .ok (.vramWr 0x3FFFF 0x1234) := by decide +kernel
theorem test_decode_nvramRd : decode refCfg (.bus 0x0014000000000) = .ok (.nvramRd 0) := by decide +kernel
theorem test_decode_nvramWr : decode refCfg (.bus 0x10141FFFF1234) = .ok (.nvramWr 0x1FFF 0x1234) := by decide +kernel
theorem test_decode_nvweWr : decode refCfg (.bus 0x1014FFFFF1234) = .ok .nvweWr := by decide +kernel
theorem test_decode_inputRd0 : decode refCfg (.bus 0x0016000000000) = .ok .inputRd0 := by decide +kernel
theorem test_decode_inputRd1 : decode refCfg (.bus 0x0016000100000) = .ok .inputRd1 := by decide +kernel
theorem test_decode_inputRd2 : decode refCfg (.bus 0x00160002F0000) = .ok .inputRd2 := by decide +kernel
theorem test_decode_dipRd : decode refCfg (.bus 0x0016000300000) = .ok .dipRd := by decide +kernel
theorem test_decode_palRd : decode refCfg (.bus 0x0018000000000) = .ok (.palRd 0) := by decide +kernel
theorem test_decode_palWr : decode refCfg (.bus 0x10187FFFF1234) = .ok (.palWr 0x7FFF 0x1234) := by decide +kernel
theorem test_decode_protRd : decode refCfg (.bus 0x001B000000000) = .ok .protRd := by decide +kernel
theorem test_decode_protWr : decode refCfg (.bus 0x101B6FFFF1234) = .ok (.protWr 0x1234) := by decide +kernel
theorem test_decode_ctrlWr : decode refCfg (.bus 0x101F0001F1234) = .ok (.ctrlWr 0x1234) := by decide +kernel
theorem test_decode_gromRd : decode refCfg (.bus 0x002FFFFFF0000) = .ok (.gromRd 0xFFFFF) := by decide +kernel
theorem test_decode_sndstRd : decode refCfg (.bus 0x001D000000000) = .ok (.sndstRd 0x01D00000) := by decide +kernel
theorem test_decode_sndlatchWr : decode refCfg (.bus 0x101D010201234) = .ok (.sndlatchWr 0x01D01020 0x1234) := by
  decide +kernel
theorem test_decode_wdogWr : decode refCfg (.bus 0x101D810701234) = .ok .wdogWr := by decide +kernel

/-- A transaction bit by bit (R70): `rw = 1`, address 0x01F00000, data 0x0020. -/
theorem test_decode_bits_bus :
    decode refCfg (.bus 0b1_00000001111100000000000000000000_0000000000100000) = .ok (.ctrlWr 0x0020) := by decide +kernel

/-! ### Pseudo-operations (R91), as 95_test_vectors.md and the values of REFCFG write them out -/

theorem test_strike : strikeRecord refCfg = .bus 0x1014800000000 := by decide +kernel
theorem test_challenge : challengeRecord refCfg 0x13 = .bus 0x101B000002600 := by decide +kernel
theorem test_response : responseRecord refCfg = .bus 0x001B000000000 := by decide +kernel
theorem test_setCtrl : setCtrlRecord refCfg true false = .bus 0x101F000000020 ∧
    setCtrlRecord refCfg false true = .bus 0x101F000000080 := by decide +kernel
theorem test_kick : kickRecord refCfg = .bus 0x101D810700000 := by decide +kernel
theorem test_frameSteps_counts :
    (frameSteps smallCfg).length = 8 + 5 * 4 ∧ (frameSteps smallCfg)[4]? = some .ftRun0 ∧
    (frameSteps smallCfg)[23]? = some .ftNext ∧ (frameSteps smallCfg)[24]? = some .ftFlush := by decide +kernel

/-! ### Decode, stage 2: the codes `rw HSEL pp` bit by bit (R73) -/

theorem test_opsel_rows :
    decodeOpsel 0b0_0000_00 = some .dfltRd ∧ decodeOpsel 0b1_0000_11 = some .dfltWr ∧
    decodeOpsel 0b0_0001_10 = some .vramRd ∧ decodeOpsel 0b1_0001_01 = some .vramWr ∧
    decodeOpsel 0b0_0010_00 = some .nvramRd ∧ decodeOpsel 0b1_0010_11 = some .nvramWr ∧
    decodeOpsel 0b1_0011_01 = some .nvweWr ∧ decodeOpsel 0b0_0100_00 = some .inputRd0 ∧
    decodeOpsel 0b0_0100_01 = some .inputRd1 ∧ decodeOpsel 0b0_0100_10 = some .inputRd2 ∧
    decodeOpsel 0b0_0100_11 = some .dipRd ∧ decodeOpsel 0b0_0101_10 = some .palRd ∧
    decodeOpsel 0b1_0101_11 = some .palWr ∧ decodeOpsel 0b0_0110_01 = some .protRd ∧
    decodeOpsel 0b1_0110_00 = some .protWr ∧ decodeOpsel 0b1_0111_10 = some .ctrlWr ∧
    decodeOpsel 0b0_1000_11 = some .gromRd ∧ decodeOpsel 0b0_1001_00 = some .sndstRd ∧
    decodeOpsel 0b1_1010_01 = some .sndlatchWr ∧ decodeOpsel 0b1_1011_10 = some .wdogWr := by decide +kernel

/-- The codes that 95_test_vectors.md 2.1 lists as invalid. -/
theorem test_opsel_invalid :
    [0x0C#7, 0x1C#7, 0x28#7, 0x3F#7, 0x50#7, 0x60#7, 0x64#7, 0x70#7, 0x7F#7].all (fun o => decodeOpsel o == none) = true := by
  decide +kernel

/-- No code has two rows. -/
theorem test_opsel_unambiguous :
    opselTable.Pairwise (fun p q => ¬ p.mask &&& q.mask &&& p.value = p.mask &&& q.mask &&& q.value) := by decide +kernel

/-! ### Decode, formats SEQ, ENV, DESC, word by word (R85, R86, R87) -/

theorem test_decode_phases :
    (List.range 13).map (fun n => (decodeSeq (BitVec.ofNat 4 n)).toOption) =
      [some .ftStart, some .ftRstchk, some .ftInsnap, some .ftClracc, some .ftRun0, some .ftRun1, some .ftScan,
        some .ftAudio, some .ftNext, some .ftFlush, some .ftPalrc, some .ftBlit, some .ftDone] := by decide +kernel
theorem test_decode_bad_phases : [13#4, 14#4, 15#4].all (fun p => (decodeSeq p).toOption == none) = true := by
  decide +kernel
theorem test_decode_hPoweron :
    decode refCfg (.env 0b0000 (.powerOn ⟨refCfg, ⟨0, []⟩, none⟩)) = .ok (.hPoweron ⟨refCfg, ⟨0, []⟩, none⟩) := by
  decide +kernel
theorem test_decode_hResetreq : decode refCfg (.env 0b0001 .none) = .ok .hResetreq := by decide +kernel
theorem test_decode_hBind : decode refCfg (.env 0b0010 (.bit true)) = .ok (.hBind true) := by decide +kernel
theorem test_decode_hDirty : decode refCfg (.env 0b0011 .none) = .ok .hDirty := by decide +kernel
theorem test_decode_hInput : decode refCfg (.env 0b0100 (.inputs 1 2 3 4 5)) = .ok (.hInput 1 2 3 4 5) := by decide +kernel
theorem test_decode_hSave : decode refCfg (.env 0b0101 .none) = .ok .hSave := by decide +kernel
theorem test_decode_hRestore (img : SavedImage) : decode refCfg (.env 0b0110 (.image img)) = .ok (.hRestore img) := rfl
theorem test_decode_eDma : decode refCfg (.env 0b0111 (.dma ⟨[(0x200, 0xFFFF)], none⟩)) =
    .ok (.eDma ⟨[(0x200, 0xFFFF)], none⟩) := by decide +kernel
theorem test_decode_eFmirq : decode refCfg (.env 0b1000 (.bit false)) = .ok (.eFmirq false) := by decide +kernel
theorem test_decode_scanline :
    decode refCfg (.env 0b1001 (.desc 0b0000000000000101_0000000011111111_0000000000001010_0000000000010000)) =
      .ok (.scanline ⟨5, 0xFF, 10, 16⟩) := by decide +kernel
theorem test_decode_protRst : decode refCfg (.env 0b1010 .none) = .ok .protRst := by decide +kernel
theorem test_decode_bad_move : decode refCfg (.env 0b1011 .none) = .error .invalidMove := by decide +kernel
theorem test_decode_wrong_operand : decode refCfg (.env 0b0111 .none) = .error .wrongOperand := by decide +kernel

/-! ### One step of each bus operation (95_test_vectors.md 2.2, 2.3, 2.4) -/

theorem test_dfltRd : readBack (inGrant refCfg) 0x0010000000000 = some 0xFFFF := by decide +kernel
theorem test_dfltWr_silent : (busStep (inGrant refCfg) 0x101000000DEAD).map State.rdata = some none := by decide +kernel

/-- `VRAM[0x20] = 0x1234`, `VRAM[0x21] = 0x5678`. -/
def lanes (b : Bool) (latch : Word) : State :=
  { inGrant refCfg with vram := ⟨0, [(0x20, 0x1234), (0x21, 0x5678)]⟩, vbank := b, pallatch := latch }

theorem test_vramRd_low : readBack (lanes true 0) 0x0000001000000 = some 0x7834 := by decide +kernel
theorem test_vramRd_high : readBack (lanes false 0) 0x00000010F0000 = some 0x5612 := by decide +kernel
theorem test_vramWr_stamps : (busStep (lanes true 0x0303) 0x100000100ABCD).map
    (fun s => (s.readVram 0x20, s.readVram 0x21)) = some (0x03CD, 0x03AB) := by decide +kernel
theorem test_vramWr_keeps : (busStep (lanes false 0x0303) 0x1000001001122).map
    (fun s => (s.readVram 0x20, s.readVram 0x21)) = some (0x2234, 0x1178) := by decide +kernel

/-- `NVRAM[0] = 0xAA`, `NVRAM[1] = 0x55`. -/
def saved (armed : Bool) : State := { inGrant refCfg with nvram := ⟨0, [(0, 0xAA), (1, 0x55)]⟩, nvwe := armed }

theorem test_nvramRd : readBack (saved false) 0x0014000000000 = some 0x55AA := by decide +kernel
theorem test_nvramWr_gated : (busStep (saved false) 0x101400000BEEF).map
    (fun s => (s.readNvram 0, s.readNvram 1)) = some (0xAA, 0x55) := by decide +kernel
theorem test_nvramWr_armed : (busStep (saved true) 0x101400000BEEF).map
    (fun s => (s.readNvram 0, s.readNvram 1)) = some (0xEF, 0xBE) := by decide +kernel
theorem test_nvramWr_last : (busStep (saved true) 0x10141FFF0C0DE).map
    (fun s => (s.readNvram 0x3FFE, s.readNvram 0x3FFF)) = some (0xDE, 0xC0) := by decide +kernel
theorem test_nvweWr : (busStep (saved false) 0x1014ABCD00001).map State.nvwe = some true := by decide +kernel

/-- `INSNAP = [0x0000, 0x0041, 0xFFFF]`, `DIPSNAP = 0xF87D`. -/
def snapped : State :=
  { inGrant refCfg with insnap0 := 0, insnap1 := 0x0041, insnap2 := 0xFFFF, dipsnap := 0xF87D }

theorem test_inputRd0 : readBack snapped 0x00160000F0000 = some 0xFFFF := by decide +kernel
theorem test_inputRd1 : readBack snapped 0x0016000100000 = some 0xFFBE := by decide +kernel
theorem test_inputRd2 : readBack snapped 0x0016000200000 = some 0x0000 := by decide +kernel
theorem test_dipRd : readBack snapped 0x00160003F0000 = some 0xF87D := by decide +kernel

/-- The colours of 95_test_vectors.md 2.2 under the default `HostColor`. -/
theorem test_colours : [0x0000, 0x7FFF, 0xFFFF, 0x8000, 0x001F, 0x03E0, 0x7C00, 0x0421, 0x1234, 0x4210].map refCfg.colorOf =
    [0x000000, 0xFFFFFF, 0xFFFFFF, 0x000000, 0x0000FF, 0x00FF00, 0xFF0000, 0x080808, 0x218CA5, 0x848484] := by
  decide +kernel

theorem test_palWr : (busStep (inGrant refCfg) 0x10187FFF08421).map
    (fun s => (s.readPalram 0x7FFF, s.readPalcache 0x7FFF)) = some (0x8421, 0x080808) := by decide +kernel
theorem test_palRd : readBack { inGrant refCfg with palram := ⟨0, [(0, 0x1234)]⟩ } 0x0018000080000 = some 0x1234 := by
  decide +kernel
theorem test_protRd : (busStep { inGrant refCfg with cursor := 7 } 0x001B000000000).map (fun s => (s.rdata, s.cursor)) =
    some (some 0x0A00, 0) := by decide +kernel
theorem test_protRd_cut : readBack (inGrant { refCfg with protTable := [0x93] }) 0x001B000000000 = some 0x2600 := by
  decide +kernel
theorem test_protWr_first : (busStep { inGrant refCfg with cursor := 6 } 0x101B000002600).map State.cursor = some 0 := by
  decide +kernel
theorem test_protWr_masked : (busStep (inGrant refCfg) 0x101B123409E00).map State.cursor = some 2 := by decide +kernel
theorem test_ctrlWr_gbank : (busStep (inGrant refCfg) 0x101F000000080).map
    (fun s => (s.vbank, s.gbankOff0, s.gbankOff1, s.ctrlval)) = some (false, 0x200000, 0, 0x0080) := by decide +kernel
theorem test_ctrlWr_others : (busStep { inGrant refCfg with vbank := true, gbankOff0 := 0x200000 } 0x101F00000FF5F).map
    (fun s => (s.vbank, s.gbankOff0, s.gbankOff1, s.ctrlval)) = some (false, 0, 0, 0xFF5F) := by decide +kernel

/-- The bytes of `GROM` that 95_test_vectors.md 2.2 lists. -/
def withGrom (bank : Nat) : State :=
  { inGrant refCfg with
    gbankOff0 := bank
    grom := ⟨0, [(0, 0x01), (1, 0x02), (0x1FFFFE, 0x7E), (0x1FFFFF, 0x7F), (0x200000, 0x81), (0x200001, 0x82),
      (0x3FFFFE, 0xFE), (0x3FFFFF, 0xFF)]⟩ }

theorem test_gromRd_low : readBack (withGrom 0) 0x002FFFFF00000 = some 0x7F7E := by decide +kernel
theorem test_gromRd_high : readBack (withGrom 0x200000) 0x002FFFFFF0000 = some 0xFFFE := by decide +kernel
theorem test_sndstRd_ready : (busStep { inGrant smallCfg with sndack := 2 } 0x001D000100000).map
    (fun s => (s.rdata, s.sndack)) = some (some 0x0000, 1) := by decide +kernel
theorem test_sndstRd_notReady : (busStep (inGrant smallCfg) 0x001D000000000).map
    (fun s => (s.rdata, s.sndack)) = some (some 0xFFFF, 0) := by decide +kernel
theorem test_sndlatchWr : (busStep (inGrant smallCfg) 0x101D010200155).map
    (fun s => (s.events, s.sndack)) = some ([.soundLatch 0x0155], 2) := by decide +kernel
theorem test_wdogWr : nextOf (exec .wdogWr (inGrant refCfg)) = some (inGrant refCfg) := rfl

/-! ### One step of each sequencer operation (95_test_vectors.md 2.6, 2.7, program D) -/

theorem test_ftStart_go : (seqStep { fresh smallCfg with frameGo := true }).map State.phase = some .rstchk := by
  decide +kernel
theorem test_ftStart_waits : (seqStep (fresh smallCfg)).map State.phase = some .idle := by decide +kernel
theorem test_ftRstchk : (seqStep { fresh refCfg with
    phase := .rstchk, resetPending := true, cursor := 6, sndack := 17, nvwe := true, vbank := true
    gbankOff0 := 0x200000 }).map
      (fun s => ((s.cursor, s.sndack, s.resetPending), (s.nvwe, s.vbank, s.gbankOff0), s.events)) =
    some ((0, 0, false), (true, true, 0x200000), [.procReset .p0, .procReset .p1]) := by decide +kernel
theorem test_ftInsnap : (seqStep { fresh refCfg with
    phase := .insnap, inRaw0 := 0x0003, inRaw1 := 1, inRaw2 := 2, dipRaw0 := 0x7D, dipRaw1 := 0xF8 }).map
      (fun s => (s.insnap0, s.insnap1, s.insnap2, s.dipsnap)) = some (0x0003, 1, 2, 0xF87D) := by decide +kernel
theorem test_ftClracc : (seqStep { fresh refCfg with
    phase := .clracc, cycDone0 := 7, cycDone1 := 8, audDone := 9, slice := 10 }).map
      (fun s => (s.cycDone0, s.cycDone1, s.audDone, s.slice, s.phase)) = some (0, 0, 0, 0, .run0) := by decide +kernel

/-- The targets of SMALLCFG, of REFCFG (R190), and of the other budgets of 95_test_vectors.md 2.6. -/
theorem test_targets :
    (List.range 4).map (smallCfg.target .p0) = [2, 5, 7, 10] ∧
    (List.range 4).map (smallCfg.target .p1) = [0, 1, 2, 3] ∧
    [0, 1, 2, 3, 4, 5, 6, 7, 8, 9, 143, 286, 287].map (refCfg.target .p0) =
      [3472, 6944, 10416, 13888, 17361, 20833, 24305, 27777, 31250, 34722, 500000, 996527, 1000000] ∧
    [0, 1, 2, 3, 4, 5, 6, 7, 8, 9, 143, 286, 287].map (refCfg.target .p1) =
      [115, 231, 347, 462, 578, 694, 810, 925, 1041, 1157, 16666, 33217, 33333] ∧
    (List.range 4).map (Cfg.target { smallCfg with budget0 := ⟨7, 2⟩ } .p0) = [0, 1, 2, 3] ∧
    (List.range 8).map (Cfg.target { smallCfg with sliceCount := 8, budget0 := ⟨5, 1⟩ } .p0) =
      [0, 1, 1, 2, 3, 3, 4, 5] := by decide +kernel

theorem test_ftRun0_grants :
    (seqStep { fresh smallCfg with phase := .run0, slice := 1, cycDone0 := 4, ran := 0, returned := false }).map
      (fun s => ((s.phase, s.grant, s.events, s.cycDone0), stall .p0 s, stall .p1 s)) =
    some ((.run0, some ⟨.p0, 1, 0⟩, [.run .p0 1], 4), false, true) := by decide +kernel
theorem test_ftRun0_at_once :
    (seqStep { fresh smallCfg with phase := .run0, slice := 1, cycDone0 := 4, ran := 1, returned := true }).map
      (fun s => (s.phase, s.grant, s.events, s.cycDone0)) = some (.run1, none, [.run .p0 1], 5) := by decide +kernel

/-- A grant of two cycles to the primary processor, of which one is executed, with an overshoot of two allowed. -/
def halfRun : State :=
  { fresh { smallCfg with overshootMax0 := 2 } with
    phase := .run0, slice := 2, cycDone0 := 5, grant := some ⟨.p0, 2, 1⟩, ran := 3, returned := false }

theorem test_ftRun0_overshoot_runs_stalled :
    stall .p0 halfRun = false ∧
    (seqStep halfRun).map (fun s => ((s.phase, s.grant, s.cycDone0), stall .p0 s)) =
      some ((.run0, some ⟨.p0, 2, 3⟩, 5), true) := by decide +kernel
theorem test_ftRun0_returns : (seqStep { halfRun with ran := 4, returned := true }).map
    (fun s => (s.phase, s.grant, s.cycDone0)) = some (.run1, none, 9) := by decide +kernel
theorem test_ftRun1_none : (seqStep { fresh smallCfg with phase := .run1 }).map
    (fun s => (s.phase, s.grant, s.events)) = some (.scan, none, []) := by decide +kernel
theorem test_ftRun1_grants : (seqStep { fresh smallCfg with phase := .run1, slice := 1, returned := false }).map
    (fun s => (s.phase, s.events)) = some (.run1, [.run .p1 1]) := by decide +kernel
theorem test_ftScan : (seqStep { bound with
    phase := .scan, desc := 0x0000000000000002, vram := ⟨0, [(0, 0x0101), (1, 0x8102)]⟩ }).map
      (fun s => (s.readPixbuf 0 0, s.readPixbuf 0 1, s.phase)) = some (0x0101, 0x0102, .audio) := by decide +kernel
theorem test_ftAudio : (seqStep { fresh smallCfg with phase := .audio, audDone := 4 }).map
    (fun s => (s.events, s.audDone, s.phase)) = some ([.audioRender 2], 6, .next) := by decide +kernel
theorem test_ftNext_loops : (seqStep { fresh smallCfg with phase := .next, slice := 2 }).map
    (fun s => (s.phase, s.slice)) = some (.run0, 3) := by decide +kernel
theorem test_ftNext_ends : (seqStep { fresh smallCfg with phase := .next, slice := 3 }).map
    (fun s => (s.phase, s.slice)) = some (.flush, 4) := by decide +kernel
theorem test_ftFlush : (seqStep { fresh refCfg with phase := .flush, audDone := 576 }).map
    (fun s => (s.events, s.audDone)) = some ([.audioRender 224], 800) := by decide +kernel

/-- SMALLCFG with a palette of four entries, to keep the recalculation short. -/
def fourColours : Cfg := { smallCfg with palIndexMask := 3 }

/-- A bound surface, four raw entries of which two have stale cached colours, four row-buffer cells. -/
def coloured : State :=
  { fresh { fourColours with screenW := 2, screenH := 2 } with
    surfaceBound := true, paldirty := true
    palram := ⟨0, [(0, 0x7C00), (1, 0x03E0), (2, 0x001F), (3, 0xFFFF)]⟩
    palcache := ⟨0, [(0, 0xFF0000), (1, 1), (2, 2), (3, 0xFFFFFF)]⟩
    pixbuf := ⟨0, [(0, 1), (1, 2), (2, 7), (3, 4)]⟩ }

theorem test_ftPalrc : (seqStep { coloured with phase := .palrc }).map
    (fun s => ((List.range 4).map s.readPalcache, s.paldirty, s.phase)) =
      some ([0xFF0000, 0x00FF00, 0x0000FF, 0xFFFFFF], false, .blit) := by decide +kernel
theorem test_ftPalrc_unbound : (seqStep { coloured with phase := .palrc, surfaceBound := false }).map
    (fun s => (s.readPalcache 1, s.paldirty, s.phase)) = some (1, true, .blit) := by decide +kernel
theorem test_ftBlit : (seqStep { coloured with phase := .blit }).map
    (fun s => (s.readHostsurf 0 0, s.readHostsurf 0 1, s.readHostsurf 1 0, s.readHostsurf 1 1)) =
      some (1, 2, 0xFFFFFF, 0xFF0000) := by decide +kernel
theorem test_ftDone : (seqStep { fresh smallCfg with phase := .done, framecnt := 0xFFFFFFFF }).map
    (fun s => (s.framecnt, s.phase)) = some (0, .idle) := by decide +kernel

/-! ### One step of each outside move (95_test_vectors.md 2.5, 2.7, 3) -/

theorem test_hPoweron : (envStep { fresh smallCfg with phase := .flush, cursor := 3, nvwe := true } 0
    (.powerOn ⟨refCfg, ⟨0, [(0, 1)]⟩, some ⟨0, [(0, 0xAA)]⟩⟩)).map
      (fun s => ((s.phase, s.cursor, s.nvwe), (s.insnap0, s.readGrom 0, s.readNvram 0), s.events)) =
    some ((.idle, 0, false), (0, 1, 0xAA), [.procReset .p0, .procReset .p1]) := by decide +kernel
theorem test_hPoweron_refused :
    refusalOf (exec (.hPoweron ⟨{ refCfg with sliceCount := 0 }, ⟨0, []⟩, none⟩) (fresh refCfg)) =
      some .badConfiguration := by
  decide +kernel
theorem test_hResetreq : (envStep (fresh refCfg) 1 .none).map State.resetPending = some true := by decide +kernel
theorem test_hBind : (envStep (fresh refCfg) 2 (.bit true)).map State.surfaceBound = some true := by decide +kernel
theorem test_hDirty : (envStep (fresh refCfg) 3 .none).map State.paldirty = some true := by decide +kernel
theorem test_hInput : (envStep (fresh refCfg) 4 (.inputs 3 1 2 0x7D 0xF8)).map
    (fun s => (s.inRaw0, s.inRaw1, s.inRaw2, s.dipRaw0, s.dipRaw1)) = some (3, 1, 2, 0x7D, 0xF8) := by decide +kernel

/-- The image of a state with `NVWE = 0`, `VBANK = 1`. -/
def image : SavedImage := imageOf { fresh refCfg with vbank := true, cursor := 3 }
/-- The image with a byte past the end of `NVRAM`. -/
def longImage : SavedImage := { image with nvram := ⟨0, [(0x4000, 1)]⟩ }
/-- REFCFG with the first budget's numerator multiplied by `k` over the denominator 2. -/
def withBudget (k : Nat) : Cfg := { refCfg with budget0 := ⟨k * refCfg.budget0.num, 2⟩ }

theorem test_hSave : (envStep { fresh refCfg with vbank := true, cursor := 3 } 5 .none).map State.saved =
    some (some image) := rfl
theorem test_hRestore : (envStep { fresh refCfg with nvwe := true, cursor := 5 } 6 (.image image)).map
    (fun s => (s.nvwe, s.vbank, s.cursor)) = some (false, true, 5) := by decide +kernel
theorem test_hRestore_refused :
    refusalOf (exec (.hRestore image) (fresh smallCfg)) = some .imageMismatch ∧
    refusalOf (exec (.hRestore longImage) (fresh refCfg)) = some .imageMismatch := by decide +kernel
/-- The same rational written otherwise is the same configuration; a greater one is another. -/
theorem test_hRestore_same_budget :
    (nextOf (exec (.hRestore image) (fresh (withBudget 2)))).map State.vbank = some true ∧
    refusalOf (exec (.hRestore image) (fresh (withBudget 3))) = some .imageMismatch := by decide +kernel
theorem test_eDma : (envStep (inGrant smallCfg) 7 (.dma ⟨[(0x200, 0xFFFF), (0x201, 1), (0x200, 2)], some 0x0303⟩)).map
    (fun s => (s.readVram 0x200, s.readVram 0x201, s.pallatch)) = some (2, 1, 0x0303) := by decide +kernel
theorem test_eFmirq : (envStep (fresh refCfg) 8 (.bit true)).map State.events = some [.firq true] := by decide +kernel

/-- Row 2 of REFCFG with its first and last words, a surface bound, phase `SCAN` (R85 to R148). -/
def rowTwo : State :=
  { fresh refCfg with
    surfaceBound := true, phase := .scan, vram := ⟨0, [(0x400, 0x8000), (0x5FE, 0x81FE), (0x5FF, 0x81FF)]⟩ }

theorem test_scanline_wraps : (envStep rowTwo 9 (.desc 0x0002FFFF00000003)).map
    (fun s => (s.readPixbuf 2 0, s.readPixbuf 2 1, s.readPixbuf 2 2, s.phase)) = some (0x1FE, 0x1FF, 0, .audio) := by
  decide +kernel
theorem test_scanline_outside : (envStep rowTwo 9 (.desc 0x00FE000000000004)).map State.pixbuf = some ⟨0, []⟩ := by
  decide +kernel
theorem test_protRst : (nextOf (exec .protRst { fresh refCfg with cursor := 6 })).map State.cursor = some 0 := by
  decide +kernel

/-! ### Turns out of their place, words of the table -/

theorem test_bus_outside_grant : refusalOf (step { fresh refCfg with schedule := [.bus 0] }) = some .outOfOrder := by
  decide +kernel
theorem test_frameGo_raised_outside_idle :
    refusalOf (step { fresh refCfg with phase := .blit, schedule := [.seq ⟨true, 0, 0, false⟩] }) = some .outOfOrder ∧
    (nextOf (step { fresh refCfg with schedule := [.seq ⟨true, 0, 0, false⟩] })).map State.phase = some .rstchk := by
  decide +kernel
theorem test_save_outside_idle : refusalOf (step { inGrant refCfg with schedule := [.env 5 .none] }) = some .outOfOrder := by
  decide +kernel
theorem test_bad_move : refusalOf (step { fresh refCfg with schedule := [.env 11 .none] }) =
    some (.invalidRecord .invalidMove) := by decide +kernel
theorem test_table_words :
    decodeTableWord 7 0x04 = some (.vramRd 0) ∧ decodeTableWord 8 0x04 = some .ftRun0 ∧
    decodeTableWord 4 0x9 = some .ftFlush ∧ decodeTableWord 8 0x13 = some .dipRd ∧
    decodeTableWord 8 0x6C = some .wdogWr ∧ decodeTableWord 8 0x0C = some .ftDone ∧
    decodeTableWord 8 0x70 = none ∧ decodeTableWord 8 0x90 = none ∧ decodeTableWord 7 0x00 = some (.dfltRd 0x00400000) := by
  decide +kernel
/-- The low two bits of the code matter for INPUT only (R73): every word of a handler with one word in REFCFG, and the
last words of the others, whose address range holds no such offset. -/
theorem test_table_words_low_bits :
    [0x5D, 0x5E, 0x5F].all (fun w => decodeTableWord 8 w == some (.ctrlWr 0)) = true ∧
    [0x26, 0x27].all (fun w => decodeTableWord 8 w == some (.sndstRd 0x01D00000)) = true ∧
    [0x6A, 0x6B].all (fun w => decodeTableWord 8 w == some (.sndlatchWr 0x01D01020 0)) = true ∧
    [0x6D, 0x6E, 0x6F].all (fun w => decodeTableWord 8 w == some .wdogWr) = true ∧
    [(0x10, some .inputRd0), (0x11, some .inputRd1), (0x12, some .inputRd2), (0x13, some .dipRd)].all
      (fun (w, i) => decodeTableWord 8 w == i) = true := by decide +kernel
theorem test_placed_word_runs :
    (nextOf (step (State.reset.withFetchWord 8 0x18))).map (fun s => (s.rdata, s.cursor)) = some (some 0x2600, 1) ∧
    (nextOf (step (State.reset.withFetchWord 8 0x5F))).map State.ctrlval = some 0 ∧
    (nextOf (step (State.reset.withFetchWord 8 0x3))).map State.phase = some .run0 ∧
    refusalOf (step (State.reset.withFetchWord 8 0x70)) = some (.invalidRecord .invalidMove) := by decide +kernel

/-! ### Witnesses: states and operands that meet the hypotheses of the statements -/

/-- The turn of SNDLATCH.WR inside a grant. -/
def latchTurn : State := { inGrant smallCfg with schedule := [.bus 0x101D010200155] }

theorem witness_StepRunsTheTurn :
    (fresh smallCfg).schedule = [] ∧ decode smallCfg (.seq (phaseCode (fresh smallCfg).phase)) = .ok .ftStart ∧
    { fresh smallCfg with schedule := [.seq ⟨true, 4, 1, true⟩] }.schedule = .seq ⟨true, 4, 1, true⟩ :: [] := by
  decide +kernel
theorem witness_StepRunsTheTurn_bus :
    latchTurn.schedule = .bus 0x101D010200155 :: [] ∧
    decode latchTurn.cfg (.bus 0x101D010200155) = .ok (.sndlatchWr 0x01D01020 0x0155) ∧
    Instr.wellFormed latchTurn.cfg (.sndlatchWr 0x01D01020 0x0155) = true ∧
    latchTurn.phase = .run0 ∧ latchTurn.grant = some ⟨.p0, 1, 0⟩ := by decide +kernel
theorem witness_StepRunsTheTurn_env :
    { fresh smallCfg with schedule := [.env 5 .none, .bus 0] }.schedule = .env 5 .none :: [.bus 0] ∧
    decode smallCfg (.env 5 .none) = .ok .hSave ∧ Instr.wellFormed smallCfg .hSave = true ∧
    (fresh smallCfg).phase = .idle ∧
    decode smallCfg (.env 8 (.bit true)) = .ok (.eFmirq true) ∧ Instr.wellFormed smallCfg (.eFmirq true) = true ∧
    decode smallCfg (.env 7 (.dma ⟨[(0, 1)], some 2⟩)) = .ok (.eDma ⟨[(0, 1)], some 2⟩) ∧
    Instr.wellFormed smallCfg (.eDma ⟨[(0, 1)], some 2⟩) = true ∧ (inGrant smallCfg).phase = .run0 := by decide +kernel
theorem witness_StepRunsTheTurn_inner :
    rowTwo.phase = .scan ∧ decode rowTwo.cfg (.env 9 (.desc 0x0002FFFF00000003)) = .ok (.scanline ⟨2, 0xFFFF, 0, 3⟩) ∧
    Instr.wellFormed rowTwo.cfg (.scanline ⟨2, 0xFFFF, 0, 3⟩) = true ∧
    decode smallCfg (.env 10 .none) = .ok .protRst ∧ Instr.wellFormed smallCfg .protRst = true ∧
    { fresh smallCfg with phase := .rstchk, resetPending := true }.phase = .rstchk ∧
    { fresh smallCfg with phase := .rstchk, resetPending := true }.resetPending = true := by decide +kernel
theorem witness_SequencerStepsNeverRefused :
    (fresh smallCfg).schedule = [] ∧
    { fresh smallCfg with phase := .blit, schedule := [.seq ⟨false, 4, 1, true⟩] }.schedule =
      .seq ⟨false, 4, 1, true⟩ :: [] := ⟨rfl, rfl⟩
theorem witness_ReservedCodesRejected : (10#4) < 11#4 := by decide

/-- Reads with operands at the ends of their ranges. -/
def boundaryReads : List Instr :=
  [.dfltRd 0xFFFFFFFF, .vramRd 0, .vramRd 0x3FFFF, .nvramRd 0x1FFF, .inputRd0, .inputRd1, .inputRd2, .dipRd, .palRd 0,
    .palRd 0x7FFF, .protRd, .gromRd 0, .gromRd 0xFFFFF, .sndstRd 0x01D0001F]

/-- Writes with operands at the ends of their ranges. -/
def boundaryWrites : List Instr :=
  [.dfltWr 0x02000000 0xFFFF, .vramWr 0x3FFFF 0xFFFF, .nvramWr 0 0xFFFF, .nvweWr, .palWr 0x7FFF 0xFFFF, .protWr 0xFFFF,
    .ctrlWr 0xFFFF, .sndlatchWr 0x01D0103F 0, .wdogWr]

/-- The steps. -/
def allSteps : List Instr :=
  [.ftStart, .ftRstchk, .ftInsnap, .ftClracc, .ftRun0, .ftRun1, .ftScan, .ftAudio, .ftNext, .ftFlush, .ftPalrc,
    .ftBlit, .ftDone]

/-- The outside moves but H.RESTORE, with operands at the ends of their ranges. -/
def boundaryMoves : List Instr :=
  [.hPoweron ⟨smallCfg, ⟨0, [(0x3FFFFF, 1)]⟩, some ⟨0, [(0x3FFF, 1)]⟩⟩, .hResetreq, .hBind true, .hDirty,
    .hInput 0xFFFF 0 0 0 0xFF, .hSave, .eDma ⟨[(0x7FFFF, 1)], none⟩, .eFmirq true,
    .scanline ⟨0xFFFF, 0xFFFF, 0xFFFF, 0xFFFF⟩, .protRst]

/-- One or more of each operation but H.RESTORE. -/
def boundaryInstrs : List Instr := boundaryReads ++ boundaryWrites ++ allSteps ++ boundaryMoves

theorem witness_DecodeEncodeRoundTrip :
    refCfg.wf = true ∧ boundaryInstrs.all (Instr.wellFormed refCfg) = true ∧
      Instr.wellFormed refCfg (.hRestore image) = true := by decide +kernel
theorem witness_EveryTransactionCompletes : refCfg.wf = true := test_refCfg_wf
theorem witness_ExactlyOneHandlerAnswers :
    refCfg.wf = true ∧ refCfg.claims .wdog 0x01D8107F true = true ∧ refCfg.select 0x01D8107F true = some .wdog ∧
    handlersInOrder.all (fun h => !refCfg.claims h 0x01D81080 true) = true ∧ refCfg.select 0x01D81080 true = none := by
  decide +kernel
theorem witness_LowAddressBitsIgnored :
    refCfg.wf = true ∧ (0x01600000#32).toNat >>> refCfg.addrShift = (0x0160000F#32).toNat >>> refCfg.addrShift := by
  decide +kernel
theorem witness_DefaultReadAnswersAllOnes :
    refCfg.select (0x01F00000#32).toNat false = none ∧ refCfg.select (0xFFFFFFFF#32).toNat false = none := by decide +kernel
theorem witness_DefaultWriteDiscarded :
    refCfg.select (0x02000000#32).toNat true = none ∧ refCfg.select (0x01420000#32).toNat true = none := by decide +kernel
theorem witness_NvramWriteGated : (saved false).nvwe = false ∧ (saved true).nvwe = true := ⟨rfl, rfl⟩
theorem witness_StrikeArmsTheWriteEnable :
    refCfg.wf = true ∧ refCfg.nvweRange.lo ≤ (0x01480000#32).toNat ∧ (0x01480000#32).toNat ≤ refCfg.nvweRange.hi ∧
    refCfg.nvweRange.lo ≤ (0x014FFFFF#32).toNat ∧ (0x014FFFFF#32).toNat ≤ refCfg.nvweRange.hi := by decide +kernel
theorem witness_PaletteWriteUpdatesBothCells :
    refCfg.wf = true ∧ refCfg.palRange.lo ≤ (0x01800000#32).toNat ∧ (0x01800000#32).toNat ≤ refCfg.palRange.hi ∧
    refCfg.palRange.lo ≤ (0x0187FFFF#32).toNat ∧ (0x0187FFFF#32).toNat ≤ refCfg.palRange.hi := by decide +kernel
theorem witness_BankBitSelectsTheImage :
    (0xFF5F#16).getLsbD refCfg.ctrlGbankBit = false ∧ (0x0080#16).getLsbD refCfg.ctrlGbankBit = true ∧
    (inGrant refCfg).cfg.gromLarge = true ∧
    (inGrant { refCfg with gromLarge := false }).cfg.gromLarge = false := by decide +kernel
theorem witness_SoundPollAnswers :
    (inGrant smallCfg).sndack = 0 ∧ 0 < { inGrant smallCfg with sndack := 1 }.sndack := by decide +kernel
theorem witness_ReadyPollsAreCounted :
    (nextOf (exec (.sndlatchWr 0x01D01020 0x0155) (inGrant smallCfg))).isSome = true ∧
    1 < smallCfg.sndackPolls ∧ ¬ 2 < smallCfg.sndackPolls := by decide +kernel
theorem witness_WatchdogWriteDoesNothing :
    refCfg.wf = true ∧ refCfg.wdogRange.lo ≤ (0x01D81070#32).toNat ∧ (0x01D8107F#32).toNat ≤ refCfg.wdogRange.hi ∧
    refCfg.select (0x01D81070#32).toNat false = none ∧ refCfg.select (0x01D8107F#32).toNat false = none := by
  decide +kernel

theorem witness_ProtectionReadAdvances :
    (inGrant refCfg).cfg.protTable[(inGrant refCfg).cursor]? = some 0x13 ∧
    { inGrant refCfg with cursor := 7 }.cfg.protTable[{ inGrant refCfg with cursor := 7 }.cursor]? = some 0x05 ∧
    refCfg.wf = true ∧ refCfg.protRange.lo ≤ (0x01B00000#32).toNat ∧ (0x01B6FFFF#32).toNat ≤ refCfg.protRange.hi := by
  decide +kernel
theorem witness_ProtectionWriteFindsFirstMatch :
    0x13 = ((0x2600#16).toNat >>> refCfg.protKeyLo) &&& (2 ^ refCfg.protKeyW - 1) ∧ (0x13#8) ∈ refCfg.protTable ∧
    0x3F = ((0xFFFF#16).toNat >>> refCfg.protKeyLo) &&& (2 ^ refCfg.protKeyW - 1) ∧
    refCfg.protTable.all (fun b => b.toNat ≠ 0x3F) = true ∧
    refCfg.wf = true ∧ refCfg.protRange.lo ≤ (0x01B00000#32).toNat ∧ (0x01B6FFFF#32).toNat ≤ refCfg.protRange.hi := by
  decide +kernel
theorem witness_ProtectionResetClearsCursor :
    refCfg.wf = true ∧ { fresh refCfg with resetPending := true }.resetPending = true ∧
    (nextOf (exec (.hRestore image) (fresh refCfg))).isSome = true := by decide +kernel
theorem witness_ProtectionReadSequence :
    { inGrant refCfg with cursor := 7 }.cursor < refCfg.protTable.length ∧
    refCfg.protTable[(7 + 10) % refCfg.protTable.length]? = some 0x27 := by decide +kernel
theorem witness_ProtectionWriteThenRead :
    refCfg.protTable[7]? = some 0x05 ∧
    (0x05#8).toNat = ((0x0A00#16).toNat >>> refCfg.protKeyLo) % 2 ^ refCfg.protKeyW ∧
    (List.range 7).all (fun j => (refCfg.protTable.getD j 0).toNat ≠ 0x05) = true ∧
    refCfg.protTable[0]? = some 0x13 ∧
    refCfg.protTable.all (fun b => b.toNat ≠ ((0xFFFF#16).toNat >>> refCfg.protKeyLo) % 2 ^ refCfg.protKeyW) = true := by
  decide +kernel
theorem witness_CursorIsolated :
    (nextOf (exec (.ctrlWr 0x0020) (inGrant refCfg))).isSome = true ∧ Instr.ctrlWr 0x0020 ≠ .protRd ∧
    (∀ v : Word, Instr.ctrlWr 0x0020 ≠ .protWr v) ∧ Instr.ctrlWr 0x0020 ≠ .protRst ∧
    Instr.ctrlWr 0x0020 ≠ .ftRstchk ∧
    (∀ p : PowerOn, Instr.ctrlWr 0x0020 ≠ .hPoweron p) :=
  ⟨rfl, nofun, nofun, nofun, nofun, nofun⟩

theorem witness_VideoWriteStampsOrKeeps : 2 ≤ (lanes true 0).cfg.vramWords := by decide +kernel
theorem witness_LaneLaw :
    2 ≤ (lanes true 0).cfg.vramWords ∧ (lanes true 0).vbank = true ∧ (lanes false 0).vbank = false := by decide +kernel
theorem witness_ScanlineCopiesTheRow :
    (0 : Nat) < rowTwo.cfg.screenW ∧ (399 : Nat) < rowTwo.cfg.screenW ∧ rowTwo.surfaceBound = true ∧
    (2#16).toNat < rowTwo.cfg.screenH := by decide +kernel
theorem witness_ScanlineStaysInItsRow : refCfg.wf = true := test_refCfg_wf
theorem witness_RecalculationWhenBoundAndDirty :
    coloured.surfaceBound = true ∧ coloured.paldirty = true ∧ 0 < coloured.cfg.palEntries ∧
    3 < coloured.cfg.palEntries ∧ { coloured with surfaceBound := false }.surfaceBound = false := by decide +kernel
theorem witness_PaletteWriteAgreesWithRecalculation : 3 < coloured.cfg.palEntries := by decide +kernel
theorem witness_PaletteAgreementKept :
    (nextOf (exec (.palWr 1 0x7FFF) coloured)).isSome = true ∧ 0 < coloured.cfg.palEntries ∧ coloured.paletteAgrees 0 ∧
    (∀ img : SavedImage, Instr.palWr 1 0x7FFF ≠ .hRestore img) ∧
    (∀ p : PowerOn, Instr.palWr 1 0x7FFF ≠ .hPoweron p) := by
  refine ⟨rfl, by decide +kernel, ?_, nofun, nofun⟩
  unfold State.paletteAgrees
  decide +kernel
theorem witness_BlitWhenBound :
    coloured.surfaceBound = true ∧ 1 < coloured.cfg.screenH ∧ 1 < coloured.cfg.screenW ∧
    { coloured with surfaceBound := false }.surfaceBound = false := by decide +kernel
/-- The second pixel of the second row names palette entry 1, which is recalculated. -/
def onePixel : State :=
  { coloured with
    vram := ⟨0, [(513, 0x8001)]⟩, palram := ⟨0, [(1, 0x7FFF)]⟩, palcache := ⟨0, [(1, 0xFFFFFF)]⟩ }

theorem witness_PixelPathEndToEnd :
    onePixel.surfaceBound = true ∧ (1#16).toNat < onePixel.cfg.screenH ∧ 1 < onePixel.cfg.screenW ∧
    1 < (2#16).toNat - (0#16).toNat ∧
    1 = (((onePixel.readVram ((((1#16).toNat * 512) &&& onePixel.cfg.rowBaseMask) +
      ((0#16).toNat * 2 ^ onePixel.cfg.colScaleLog2 + 1) % 512)).toNat % 0x8000) &&& onePixel.cfg.palIndexMask) ∧
    onePixel.paletteAgrees 1 := by
  refine ⟨by decide +kernel, by decide +kernel, by decide +kernel, by decide +kernel, by decide +kernel, ?_⟩
  unfold State.paletteAgrees
  decide +kernel
theorem witness_FrameStartWaitsForGo :
    { fresh smallCfg with frameGo := true }.frameGo = true ∧ (fresh smallCfg).frameGo = false := ⟨rfl, rfl⟩
theorem witness_ResetCheckPerformsSoftReset :
    { fresh smallCfg with resetPending := true }.resetPending = true ∧ (fresh smallCfg).resetPending = false := ⟨rfl, rfl⟩

/-- A run step of either processor at its target, below it, and with a grant open; each before and after the
processor's return. -/
theorem witness_RunStepsGrantAndReturn :
    (fresh smallCfg).grant = none ∧ smallCfg.target .p1 (fresh smallCfg).slice ≤ (fresh smallCfg).cycDone .p1 ∧
    smallCfg.target .p0 0 ≤ { fresh smallCfg with cycDone0 := 2 }.cycDone .p0 ∧
    (fresh smallCfg).cycDone .p0 + (⟨.p0, 2, 0⟩ : Grant).cycles = smallCfg.target .p0 (fresh smallCfg).slice ∧
    halfRun.grant = some ⟨.p0, 2, 1⟩ ∧ halfRun.returned = false ∧ 1 ≤ halfRun.ran ∧
    halfRun.ran ≤ 2 + halfRun.cfg.overshootMax .p0 ∧
    { halfRun with ran := 4, returned := true }.returned = true ∧ 4 = 2 + halfRun.cfg.overshootMax .p0 := by decide +kernel

/-- A grant of two cycles in slice 0 of SMALLCFG, of which one is executed. -/
def midGrant : State := { fresh smallCfg with phase := .run0, grant := some ⟨.p0, 2, 1⟩, returned := false }

theorem midGrant_inv : midGrant.Inv where
  cfg := test_smallCfg_wf
  memories := ⟨rfl, rfl, rfl, rfl, rfl, rfl, rfl⟩
  cursor := by decide
  sndack := Nat.zero_le _
  banks := ⟨.inl rfl, rfl⟩
  slice := ⟨Nat.zero_le _, by decide, nofun⟩
  grant := by intro g h; cases h; exact ⟨rfl, by decide, by decide, by decide⟩
  cycles0 := by intro n h; cases h; rfl
  cycles1 := by intro n h; cases h; rfl
  audio := ⟨Nat.zero_le _, by intro n h; cases h; rfl, by rintro (h | h | h) <;> cases h⟩

theorem witness_RunStepsGrantAndReturn_stall : midGrant.Inv ∧ stall .p0 midGrant = false :=
  ⟨midGrant_inv, by decide +kernel⟩
theorem witness_LineCounterAdvances :
    { fresh smallCfg with slice := 2 }.slice + 1 < smallCfg.sliceCount ∧
    smallCfg.sliceCount ≤ { fresh smallCfg with slice := 3 }.slice + 1 := by decide +kernel
theorem witness_FlushFillsTheBuffer :
    { fresh smallCfg with audDone := 9 }.audDone < smallCfg.frameSamples ∧
    smallCfg.frameSamples ≤ { fresh smallCfg with audDone := 10 }.audDone := by decide +kernel

/-- SMALLCFG after power-on meets the invariant. -/
theorem fresh_inv : (fresh smallCfg).Inv where
  cfg := test_smallCfg_wf
  memories := ⟨rfl, rfl, rfl, rfl, rfl, rfl, rfl⟩
  cursor := by decide
  sndack := Nat.zero_le _
  banks := ⟨.inl rfl, rfl⟩
  slice := ⟨Nat.zero_le _, nofun, nofun⟩
  grant := nofun
  cycles0 := nofun
  cycles1 := nofun
  audio := ⟨Nat.zero_le _, nofun, by rintro (h | h | h) <;> cases h⟩

/-- SMALLCFG at the end of the slice loop, as program C of 95_test_vectors.md leaves the counters. -/
def atFlush : State :=
  { fresh smallCfg with phase := .flush, slice := 4, cycDone0 := 10, cycDone1 := 3, audDone := 8 }

theorem atFlush_inv : atFlush.Inv where
  cfg := test_smallCfg_wf
  memories := ⟨rfl, rfl, rfl, rfl, rfl, rfl, rfl⟩
  cursor := by decide
  sndack := Nat.zero_le _
  banks := ⟨.inl rfl, rfl⟩
  slice := ⟨by decide, nofun, fun _ => rfl⟩
  grant := nofun
  cycles0 := by intro n h; cases h; exact ⟨by decide, by decide⟩
  cycles1 := by intro n h; cases h; exact ⟨by decide, by decide⟩
  audio := ⟨by decide, by intro n h; cases h; decide, by rintro (h | h | h) <;> cases h⟩

theorem witness_SaveThenRestore :
    (fresh smallCfg).Inv ∧ Cfg.sameParameters (fresh smallCfg).cfg (inGrant smallCfg).cfg :=
  ⟨fresh_inv, rfl, fun _ => .inl rfl, fun _ => rfl⟩
/-- The last cell of a memory, under a configuration whose budget is written otherwise. -/
theorem witness_SaveThenRestore_any :
    Cfg.sameParameters { image with nvram := ⟨0, [(0x3FFF, 1)]⟩ }.cfg (fresh (withBudget 2)).cfg ∧
    (∀ cell ∈ { image with nvram := ⟨0, [(0x3FFF, 1)]⟩ }.nvram.cells, cell.1 < (fresh (withBudget 2)).cfg.nvramBytes) :=
  ⟨(cfg_same_iff _ _).1 (by decide +kernel), by decide +kernel⟩
/-- Each ground of the refusal: another configuration, or the first cell that a memory lacks. -/
theorem witness_SaveThenRestore_refused :
    ¬ Cfg.sameParameters image.cfg (fresh smallCfg).cfg ∧
    (∃ cell ∈ longImage.nvram.cells, (fresh refCfg).cfg.nvramBytes ≤ cell.1) ∧
    (∃ cell ∈ { image with palram := ⟨0, [(0x8000, 1)]⟩ }.palram.cells, (fresh refCfg).cfg.palEntries ≤ cell.1) ∧
    (∃ cell ∈ { image with palcache := ⟨0, [(0x8000, 1)]⟩ }.palcache.cells, (fresh refCfg).cfg.palEntries ≤ cell.1) ∧
    (∃ cell ∈ { image with vram := ⟨0, [(0x80000, 1)]⟩ }.vram.cells, (fresh refCfg).cfg.vramWords ≤ cell.1) :=
  ⟨fun h => absurd ((cfg_same_iff _ _).2 h) (by decide +kernel), by decide +kernel, by decide +kernel, by decide +kernel,
    by decide +kernel⟩
theorem witness_PowerOnValues :
    smallCfg.wf = true ∧ Cfg.wf { smallCfg with sliceCount := 0 } = false ∧
    (⟨smallCfg, ⟨0, []⟩, some ⟨0, [(0, 1)]⟩⟩ : PowerOn).nvram = some ⟨0, [(0, 1)]⟩ ∧
    (⟨smallCfg, ⟨0, []⟩, none⟩ : PowerOn).nvram = none := by decide +kernel

/-- The ways out of place, each with its well-formed operation. -/
theorem witness_TurnsOutOfPlaceRefused :
    refCfg.wf = true ∧ (fresh refCfg).phase ≠ .run0 ∧
    (∀ g : Grant, { fresh refCfg with phase := .run0 }.grant = some g → g.proc ≠ .p0) ∧
    (∀ g : Grant, { fresh refCfg with phase := .run0, grant := some ⟨.p1, 1, 0⟩ }.grant = some g → g.proc ≠ .p0) ∧
    { fresh refCfg with schedule := [.bus 0x001B000000000] }.schedule = .bus 0x001B000000000 :: [] :=
  ⟨test_refCfg_wf, nofun, nofun, by intro g h; cases h; decide, rfl⟩
theorem witness_TurnsOutOfPlaceRefused_moves :
    (decode refCfg (.env 5 .none) = .ok .hSave ∧ Instr.wellFormed refCfg .hSave = true ∧
      (inGrant refCfg).phase ≠ .idle) ∧
    (decode refCfg (.env 7 (.dma ⟨[], none⟩)) = .ok (.eDma ⟨[], none⟩) ∧
      Instr.wellFormed refCfg (.eDma ⟨[], none⟩) = true ∧ (fresh refCfg).phase ≠ .run0) ∧
    (decode refCfg (.env 9 (.desc 0)) = .ok (.scanline ⟨0, 0, 0, 0⟩) ∧
      Instr.wellFormed refCfg (.scanline ⟨0, 0, 0, 0⟩) = true ∧ (fresh refCfg).phase ≠ .scan) ∧
    (decode refCfg (.env 10 .none) = .ok .protRst ∧ Instr.wellFormed refCfg .protRst = true ∧
      (fresh refCfg).phase ≠ .rstchk ∧ { fresh refCfg with phase := .rstchk }.resetPending = false) := by decide +kernel
theorem witness_TurnsOutOfPlaceRefused_frameGo :
    { inGrant refCfg with schedule := [.seq ⟨true, 0, 0, false⟩] }.schedule = .seq ⟨true, 0, 0, false⟩ :: [] ∧
    (inGrant refCfg).frameGo = false ∧ (inGrant refCfg).phase ≠ .idle := ⟨rfl, rfl, nofun⟩
theorem witness_ResetMeetsInvariant :
    refCfg.wf = true ∧ (⟨0, [(0, 1), (0x3FFFFF, 2)]⟩ : Memory 8).wf refCfg.gromBytes = true ∧
    (⟨0, [(0, 1)]⟩ : Memory 8).wf refCfg.nvramBytes = true := by decide +kernel

theorem witness_StepKeepsInvariant :
    (fresh smallCfg).Inv ∧ (nextOf (step (fresh smallCfg))).isSome = true ∧
    atFlush.Inv ∧ (nextOf (step atFlush)).isSome = true :=
  ⟨fresh_inv, by decide +kernel, atFlush_inv, by decide +kernel⟩
theorem witness_CyclesReachTheBudget : atFlush.Inv ∧ atFlush.phase = .flush ∧ atFlush.cfg.overshootMax .p0 = 0 :=
  ⟨atFlush_inv, rfl, rfl⟩
theorem witness_TargetIsProportional : refCfg.wf = true ∧ (refCfg.budget .p0).den = 1 := ⟨test_refCfg_wf, rfl⟩

/-- SMALLCFG with `FRAME_GO` at 1 and processors that return at once. -/
def going : State := { fresh smallCfg with frameGo := true, returned := true }

theorem witness_FrameTerminates :
    going.cfg.wf = true ∧ going.phase = .idle ∧ going.frameGo = true ∧ going.schedule = [] ∧ going.grant = none ∧
    going.returned = true :=
  ⟨test_smallCfg_wf, rfl, rfl, rfl, rfl, rfl⟩
theorem witness_FrameTerminates_steps :
    atFlush.Inv ∧ (nextOf (step atFlush)).isSome = true ∧
    (∀ p : PowerOn, decode atFlush.cfg (fetch atFlush).1 ≠ .ok (.hPoweron p)) :=
  ⟨atFlush_inv, by decide +kernel, nofun⟩
theorem witness_FrameTerminates_hang :
    midGrant.schedule = [] ∧ midGrant.returned = false ∧ midGrant.phase = runPhase .p0 ∧
    midGrant.grant = some ⟨.p0, 2, 1⟩ ∧
    { fresh smallCfg with phase := .run1, slice := 1 }.cycDone .p1 < smallCfg.target .p1 1 := by decide +kernel
theorem witness_OnlyNamedOperationsWrite :
    (nextOf (exec .hSave going)).isSome = true ∧ (∀ p : PowerOn, Instr.hSave ≠ .hPoweron p) ∧
    (∀ img : SavedImage, Instr.hSave ≠ .hRestore img) ∧ going.nvwe = false ∧
    { going with nvwe := true }.nvwe = true ∧
    (List.range 16).all (fun code => decide ((decodeSeq (BitVec.ofNat 4 code)).toOption ≠ some .hSave)) = true :=
  ⟨rfl, nofun, nofun, rfl, rfl, by decide +kernel⟩

/-! ### The statements of the per-instruction family hold of something -/

theorem witness_SelectCode : refCfg.wf = true ∧ boundaryInstrs.all (Instr.wellFormed refCfg) = true :=
  ⟨test_refCfg_wf, witness_DecodeEncodeRoundTrip.2.1⟩

end Sys2Proof.Tests
end

section
/-! SUPPORT. Format BUS as a whole: which row stage 2 finds for a selected handler, that its operands exist, and that its
operation completes; with it the statements of 40_bus_dispatch.md on the dispatch itself, the strike and the watchdog. -/

namespace Sys2Proof

/-! ### What a row of the operation select table stands for (R73) -/

/-- The handler whose transactions a row decodes. -/
def BusOp.handler : BusOp → Option Handler
  | .dfltRd | .dfltWr => none
  | .vramRd | .vramWr => some .vram
  | .nvramRd | .nvramWr => some .nvram
  | .nvweWr => some .nvwe
  | .inputRd0 | .inputRd1 | .inputRd2 | .dipRd => some .input
  | .palRd | .palWr => some .pal
  | .protRd | .protWr => some .prot
  | .ctrlWr => some .ctrl
  | .gromRd => some .grom
  | .sndstRd => some .sndst
  | .sndlatchWr => some .sndlatch
  | .wdogWr => some .wdog

/-- Does a row decode writes? -/
def BusOp.isWrite : BusOp → Bool
  | .dfltWr | .vramWr | .nvramWr | .nvweWr | .palWr | .protWr | .ctrlWr | .sndlatchWr | .wdogWr => true
  | .dfltRd | .vramRd | .nvramRd | .inputRd0 | .inputRd1 | .inputRd2 | .dipRd | .palRd | .protRd | .gromRd
  | .sndstRd => false

/-- The least word offset of a row: an INPUT row has the port it reads, the others begin at 0. -/
def BusOp.minOffset : BusOp → Nat
  | .inputRd1 => 1
  | .inputRd2 => 2
  | .dipRd => 3
  | _ => 0

/-- Stage 2 has a row for every handler in every direction that it admits, and the row is the handler's own. -/
theorem decodeOpsel_selected {rw : Bool} {h : Option Handler} (hd : ∀ g ∈ h, g.admitsDir rw = true) (q : BitVec 2) :
    ∃ op, decodeOpsel (BitVec.ofBool rw ++ selectCode h ++ q) = some op ∧
      op.handler = h ∧ op.isWrite = rw ∧ op.minOffset ≤ q.toNat := by
  suffices hrow : (decodeOpsel (BitVec.ofBool rw ++ selectCode h ++ q)).any (fun op =>
      op.handler == h && op.isWrite == rw && decide (op.minOffset ≤ q.toNat)) = true by
    simpa [Option.any_eq_true, and_assoc] using hrow
  cases h with
  | none => revert rw q; decide
  | some g =>
    have hg := hd g rfl
    clear hd
    revert rw q
    cases g <;> decide

/-! ### Decoding a transaction -/

/-- A transaction is its three fields (R70). -/
theorem busRecord_fields (t : BitVec 49) : busRecord (busRw t) (busAddr t) (busData t) = t := by
  have hw : (busRw t).toNat = t.toNat / 2 ^ 48 := by
    have ht := t.isLt
    have hb : t.toNat / 2 ^ 48 < 2 := by omega
    rw [busRw, ← BitVec.testBit_toNat, Nat.toNat_testBit, Nat.mod_eq_of_lt hb]
  apply BitVec.eq_of_toNat_eq
  simp only [toNat_busRecord, hw, busAddr, busData, BitVec.extractLsb'_toNat, Nat.shiftRight_eq_div_pow]
  omega

section
variable {c : Cfg} {a : Addr}

/-- A transaction of a handler whose row leaves the two low bits of the offset out. -/
theorem decode_bus_of_select {rw : Bool} {h : Option Handler} {op : BusOp} (v : Word) (hs : c.select a.toNat rw = h)
    (ho : ∀ q : BitVec 2, decodeOpsel (BitVec.ofBool rw ++ selectCode h ++ q) = some op) :
    decode c (.bus (busRecord rw a v)) = .ok (busOperands c op a v) :=
  decodeBus_busRecord hs (ho _)

/-- A read that no handler claims is DFLT.RD (R101). -/
theorem decode_unclaimedRead (v : Word) (hs : c.select a.toNat false = none) :
    decode c (.bus (busRecord false a v)) = .ok (.dfltRd a) :=
  decode_bus_of_select (op := .dfltRd) v hs (by decide)

/-- A write that no handler claims is DFLT.WR (R102). -/
theorem decode_unclaimedWrite (v : Word) (hs : c.select a.toNat true = none) :
    decode c (.bus (busRecord true a v)) = .ok (.dfltWr a v) :=
  decode_bus_of_select (op := .dfltWr) v hs (by decide)

/-- Stage 1 selects a handler for the addresses of its range, in a direction that it admits. -/
theorem Cfg.select_of_mem_range (hc : c.wf = true) {h : Handler} {x : Nat} {rw : Bool} (hlo : (c.range h).lo ≤ x)
    (hhi : x ≤ (c.range h).hi) (hd : h.admitsDir rw = true) : c.select x rw = some h :=
  Cfg.select_of_claims hc ((Cfg.claims_iff _ _ _).2 ⟨hlo, hhi, hd⟩)

/-- Two handlers whose ranges share an address are one, or R7 (a) lets them overlap. -/
theorem Cfg.eq_or_mayOverlap (hc : c.wf = true) {h g : Handler} {x : Nat} (hlo : (c.range h).lo ≤ x)
    (hhi : x ≤ (c.range h).hi) (glo : (c.range g).lo ≤ x) (ghi : x ≤ (c.range g).hi) :
    h = g ∨ mayOverlap h g = true := by
  have ha := Cfg.wf_apart hc h g
  simp only [Cfg.apart, Bool.or_eq_true, decide_eq_true_eq, beq_iff_eq] at ha
  rcases ha with (ha | ha) | ha
  · exact ha
  · omega
  · omega

/-- No handler claims a read of the strike range: only the watchdog's range may meet another's, and the strike admits
writes, as the watchdog does (R7 a, R106). -/
theorem Cfg.select_read_nvweRange (hc : c.wf = true) {x : Nat} (hlo : c.nvweRange.lo ≤ x) (hhi : x ≤ c.nvweRange.hi) :
    c.select x false = none := by
  rw [Option.eq_none_iff_forall_ne_some]
  intro g hg
  obtain ⟨glo, ghi, hd⟩ := (Cfg.claims_iff _ _ _).1 (Cfg.claims_of_select hg)
  rcases Cfg.eq_or_mayOverlap hc (h := .nvwe) hlo hhi glo ghi with rfl | ho
  · cases hd
  · revert ho
    cases g <;> decide

/-- The word offset behind a selected row is at least the row's least one and within the handler's range. -/
theorem BusOp.minOffset_le_lastOffset {rw : Bool} {h : Handler} {op : BusOp} (hs : c.select a.toNat rw = some h)
    (hm : op.minOffset ≤ (BitVec.ofNat 2 (c.offsetOf (some h) a.toNat)).toNat) : op.minOffset ≤ c.lastOffset h := by
  have hk : c.offsetOf (some h) a.toNat ≤ c.lastOffset h := Cfg.wordOffset_le_lastOffset hs
  rw [BitVec.toNat_ofNat] at hm
  omega

/-- Counted in words, an address of a range is the range's first word and the word offset (R7 e, R51). -/
theorem Cfg.shiftRight_addrShift (hc : c.wf = true) {h : Handler} {x : Nat} (hlo : (c.range h).lo ≤ x) :
    x >>> c.addrShift = ((c.range h).lo >>> c.addrShift) + c.wordOffset h x := by
  have hr := Cfg.wf_rangeWf hc h
  simp only [Cfg.rangeWf, Bool.and_eq_true, decide_eq_true_eq] at hr
  obtain ⟨⟨-, halign⟩, -⟩ := hr
  simp only [Cfg.wordOffset, Nat.shiftRight_eq_div_pow]
  rw [← Nat.add_div_of_dvd_right (Nat.dvd_of_mod_eq_zero halign), Nat.add_sub_cancel' hlo]

/-- The entry that lies `k` words after the palette window's first is reached first at `k` modulo the number of
entries. -/
theorem Cfg.paletteOffset_mod (k : Nat) :
    c.paletteOffset ((c.palRange.lo >>> c.addrShift + k) % c.palEntries) = k % c.palEntries := by
  unfold Cfg.paletteOffset
  generalize c.palRange.lo >>> c.addrShift = b
  have hE : 0 < c.palEntries := Nat.succ_pos _
  have hlt : b % c.palEntries < c.palEntries := Nat.mod_lt _ hE
  have hb : c.palEntries * (b / c.palEntries) + b % c.palEntries = b := Nat.div_add_mod _ _
  calc ((b + k) % c.palEntries + c.palEntries - b % c.palEntries) % c.palEntries
      = ((b + k) % c.palEntries + (c.palEntries - b % c.palEntries)) % c.palEntries := by
        rw [Nat.add_sub_assoc hlt.le]
    _ = (b + k + (c.palEntries - b % c.palEntries)) % c.palEntries := Nat.mod_add_mod _ _ _
    _ = (k + c.palEntries * (b / c.palEntries + 1)) % c.palEntries := by
        congr 1
        rw [Nat.mul_succ]
        omega
    _ = k % c.palEntries := Nat.add_mul_mod_self_left _ _ _

/-- The palette index of an address in the window names an entry that the window reaches (R74, R110). -/
theorem Cfg.paletteIndex_reached (hc : c.wf = true) {x : Nat} {rw : Bool} (hs : c.select x rw = some .pal) :
    c.paletteIndex x < c.palEntries ∧ c.paletteOffset (c.paletteIndex x) ≤ c.lastOffset .pal := by
  obtain ⟨hlo, -, -⟩ := (Cfg.claims_iff _ _ _).1 (Cfg.claims_of_select hs)
  rw [Cfg.paletteIndex, Cfg.and_palIndexMask hc, Cfg.shiftRight_addrShift hc hlo]
  refine ⟨Nat.mod_lt _ (Nat.succ_pos _), ?_⟩
  calc c.paletteOffset ((c.palRange.lo >>> c.addrShift + c.wordOffset .pal x) % c.palEntries)
      = c.wordOffset .pal x % c.palEntries := Cfg.paletteOffset_mod _
    _ ≤ c.wordOffset .pal x := Nat.mod_le _ _
    _ ≤ c.lastOffset .pal := Cfg.wordOffset_le_lastOffset hs

/-- The operands of a row exist where stage 1 has selected the row's handler (R74, R118). -/
theorem busOperands_wellFormed (hc : c.wf = true) {op : BusOp} (v : Word)
    (hs : c.select a.toNat op.isWrite = op.handler)
    (hm : op.minOffset ≤ (BitVec.ofNat 2 (c.offsetOf op.handler a.toNat)).toNat) :
    (busOperands c op a v).wellFormed c = true := by
  cases op <;> simp only [busOperands, Instr.wellFormed, Bool.and_eq_true, decide_eq_true_eq, beq_iff_eq]
  case dfltRd | dfltWr => exact hs
  case vramRd | vramWr | nvramRd | nvramWr | gromRd => exact Cfg.wordOffset_le_lastOffset hs
  case inputRd1 | inputRd2 | dipRd => exact BusOp.minOffset_le_lastOffset hs hm
  case palRd | palWr => exact Cfg.paletteIndex_reached hc hs
  case sndstRd | sndlatchWr =>
    obtain ⟨hlo, hhi, -⟩ := (Cfg.claims_iff _ _ _).1 (Cfg.claims_of_select hs)
    simp only [Cfg.holds, Bool.and_eq_true, decide_eq_true_eq]
    exact ⟨hlo, hhi⟩

/-- A transaction decodes to a row that has its direction, with operands that exist (R118). -/
theorem decode_bus_total (hc : c.wf = true) (t : BitVec 49) : ∃ op : BusOp, op.isWrite = busRw t ∧
    decode c (.bus t) = .ok (busOperands c op (busAddr t) (busData t)) ∧
    (busOperands c op (busAddr t) (busData t)).wellFormed c = true := by
  have hd : ∀ g ∈ c.select (busAddr t).toNat (busRw t), g.admitsDir (busRw t) = true := fun g hg =>
    ((Cfg.claims_iff _ _ _).1 (Cfg.claims_of_select hg)).2.2
  obtain ⟨op, ho, hh, hw, hm⟩ := decodeOpsel_selected hd (BitVec.ofNat 2 (c.offsetOf _ (busAddr t).toNat))
  refine ⟨op, hw, ?_, busOperands_wellFormed hc _ (by rw [hw, hh]) (by rw [hh]; exact hm)⟩
  have hdec := decodeBus_busRecord (v := busData t) rfl ho
  rwa [busRecord_fields] at hdec

end

end Sys2Proof

namespace Sys2Proof.Machine

/-- Every bus operation completes, and one that reads answers (R100, R118). -/
theorem exec_busOperands_completes (c : Cfg) (op : BusOp) (a : Addr) (v : Word) (s : State) :
    ∃ u, exec (busOperands c op a v) s = .next u ∧ (op.isWrite = false → ∃ d, u.rdata = some d) := by
  cases op
  case dfltWr | vramWr | nvramWr | nvweWr | palWr | protWr | ctrlWr | sndlatchWr | wdogWr => exact ⟨_, rfl, nofun⟩
  case dfltRd | vramRd | nvramRd | inputRd0 | inputRd1 | inputRd2 | dipRd | palRd | protRd | gromRd =>
    exact ⟨_, rfl, fun _ => ⟨_, rfl⟩⟩
  case sndstRd =>
    refine ⟨_, rfl, fun _ => ?_⟩
    by_cases hz : s.sndack = 0
    · exact ⟨s.cfg.sndNotready, by simp [hz]⟩
    · exact ⟨s.cfg.sndReady, by simp [hz]⟩

/-- Settles O4: stage 2 has a row for every handler that stage 1 can select, in the direction that it admits. -/
theorem everyTransactionCompletes : Obligations.EveryTransactionCompletes := by
  unfold Obligations.EveryTransactionCompletes
  intro c t hc
  obtain ⟨op, hw, hd, hwf⟩ := decode_bus_total hc t
  refine ⟨_, hd, hwf, fun s => ?_⟩
  rw [← hw]
  exact exec_busOperands_completes c op _ _ s

/-- Settles O13: the strike range is the strike's alone for writes, and no handler claims its reads. -/
theorem strikeArmsTheWriteEnable : Obligations.StrikeArmsTheWriteEnable := by
  unfold Obligations.StrikeArmsTheWriteEnable
  refine ⟨fun _ => rfl, fun c a v hc hlo hhi => ⟨?_, ?_⟩⟩
  · exact decode_bus_of_select (op := .nvweWr) v (Cfg.select_of_mem_range hc (h := .nvwe) hlo hhi rfl) (by decide)
  · exact decode_unclaimedRead v (Cfg.select_read_nvweRange hc hlo hhi)

/-- Settles O9: the default row decodes what no handler claims. -/
theorem defaultReadAnswersAllOnes : Obligations.DefaultReadAnswersAllOnes := by
  unfold Obligations.DefaultReadAnswersAllOnes
  exact ⟨fun _ _ v hs => decode_unclaimedRead v hs, fun _ _ => ⟨_, rfl⟩⟩

/-- Settles O10: the default row decodes what no handler claims. -/
theorem defaultWriteDiscarded : Obligations.DefaultWriteDiscarded := by
  unfold Obligations.DefaultWriteDiscarded
  exact ⟨fun _ _ v hs => decode_unclaimedWrite v hs, fun _ _ _ => ⟨_, rfl⟩⟩

/-- Settles O23: the watchdog claims the writes of its range, and an unclaimed read is the default's. -/
theorem watchdogWriteDoesNothing : Obligations.WatchdogWriteDoesNothing := by
  unfold Obligations.WatchdogWriteDoesNothing
  refine ⟨fun _ => rfl, fun c a v hc hlo hhi => ⟨?_, ?_⟩⟩
  · exact decode_bus_of_select (op := .wdogWr) v (Cfg.select_of_mem_range hc (h := .wdog) hlo hhi rfl) (by decide)
  · exact decode_unclaimedRead v

end Sys2Proof.Machine
end

section
/-! SUPPORT. The protection coprocessor (41_protection.md): how its words read the table and the key, where a challenge
puts the cursor, and which transactions reach it; with it the statements R131 to R133. -/

namespace Sys2Proof

/-- A read anywhere in the protection range is PROT.RD (R131). -/
theorem decode_protRange_read {c : Cfg} {a : Addr} (hc : c.wf = true) (hlo : c.protRange.lo ≤ a.toNat)
    (hhi : a.toNat ≤ c.protRange.hi) (v : Word) : decode c (.bus (busRecord false a v)) = .ok .protRd :=
  decode_bus_of_select (op := .protRd) v (Cfg.select_of_mem_range hc (h := .prot) hlo hhi rfl) (by decide)

/-- A write anywhere in the protection range is PROT.WR (R132). -/
theorem decode_protRange_write {c : Cfg} {a : Addr} (hc : c.wf = true) (hlo : c.protRange.lo ≤ a.toNat)
    (hhi : a.toNat ≤ c.protRange.hi) (v : Word) : decode c (.bus (busRecord true a v)) = .ok (.protWr v) :=
  decode_bus_of_select (op := .protWr) v (Cfg.select_of_mem_range hc (h := .prot) hlo hhi rfl) (by decide)

end Sys2Proof

namespace Sys2Proof.Machine

/-- The response at a cursor inside the table is the entry there, moved up by the response's shift (R77). -/
theorem protResponse_of_getElem? {c : Cfg} {k : Nat} {b : Byte} (h : c.protTable[k]? = some b) :
    protResponse c k = BitVec.ofNat 16 (b.toNat * 2 ^ c.protRdShift) := by
  rw [protResponse, h, Option.getD_some, Nat.shiftLeft_eq]

/-- The key is the challenge word's key field under the mask of its width (R78). -/
theorem protKey_eq_and (c : Cfg) (v : Word) :
    protKey c v = (v.toNat >>> c.protKeyLo) &&& (2 ^ c.protKeyW - 1) :=
  (Nat.and_two_pow_sub_one_eq_mod _ _).symm

/-- A challenge puts the cursor on the first entry equal to the key, or on 0 where no entry is (R132). -/
theorem protCursor_cases (c : Cfg) (v : Word) :
    ((∃ b, c.protTable[protCursor c v]? = some b ∧ b.toNat = protKey c v) ∧
      ∀ m < protCursor c v, ∀ b, c.protTable[m]? = some b → b.toNat ≠ protKey c v) ∨
    ((∀ b ∈ c.protTable, b.toNat ≠ protKey c v) ∧ protCursor c v = 0) := by
  have hs := firstMatch_spec (protKey c v) c.protTable 0
  unfold protCursor
  cases hf : firstMatch (protKey c v) c.protTable 0 with
  | none =>
    rw [hf] at hs
    exact .inr ⟨hs, rfl⟩
  | some m =>
    rw [hf] at hs
    obtain ⟨n, hm, hn⟩ := hs
    obtain rfl : m = n := hm.trans (Nat.zero_add n)
    exact .inl hn

/-- The soft reset performs PROT.RST (R133, R206). -/
@[simp] theorem softReset_cursor (s : State) : (softReset s).cursor = 0 := by rw [softReset_eq]

/-- With a reset requested, FT.RSTCHK performs the soft reset and goes on (R172). -/
theorem execFtRstchk_of_pending {s : State} (h : s.resetPending = true) :
    execFtRstchk s = .next ((softReset s).goto .insnap) := by
  rw [execFtRstchk, if_pos h]

/-- A restore that is taken does not write the cursor (R133, R210). -/
theorem execHRestore_cursor {img : SavedImage} {s t : State} (h : execHRestore img s = .next t) :
    t.cursor = s.cursor := by
  unfold execHRestore at h
  split at h
  · cases h
    rfl
  · cases h

/-- Settles O25: either the cursor stands on the first match, or there is none and it is 0. -/
theorem protectionWriteFindsFirstMatch : Obligations.ProtectionWriteFindsFirstMatch := by
  unfold Obligations.ProtectionWriteFindsFirstMatch
  refine ⟨fun v s key hkey => ⟨protCursor s.cfg v, rfl, ?_⟩, fun c a v hc hlo hhi => decode_protRange_write hc hlo hhi v⟩
  rw [← protKey_eq_and] at hkey
  subst hkey
  rcases protCursor_cases s.cfg v with ⟨⟨b, hb, hbk⟩, hfirst⟩ | ⟨hnone, hzero⟩
  · exact ⟨fun _ => ⟨⟨b, hb, hbk⟩, hfirst⟩, fun hno => absurd hbk (hno b (List.mem_of_getElem? hb))⟩
  · exact ⟨fun ⟨b, hb, hbk⟩ => absurd hbk (hnone b hb), fun _ => hzero⟩

/-- Settles O24: the answer is the response at the cursor, and every read of the range is PROT.RD. -/
theorem protectionReadAdvances : Obligations.ProtectionReadAdvances := by
  unfold Obligations.ProtectionReadAdvances
  refine ⟨fun s b hb => ?_, fun c a v hc hlo hhi => decode_protRange_read hc hlo hhi v⟩
  rw [← protResponse_of_getElem? hb]
  rfl

/-- Settles O26: PROT.RST and power-on write 0, the soft reset contains PROT.RST, and no image holds the cursor. -/
theorem protectionResetClearsCursor : Obligations.ProtectionResetClearsCursor := by
  unfold Obligations.ProtectionResetClearsCursor
  refine ⟨fun _ => rfl, fun p s hc => ⟨_, if_pos hc, rfl⟩, fun s hs => ⟨_, execFtRstchk_of_pending hs, ?_⟩,
    fun _ _ _ h => execHRestore_cursor h⟩
  rw [goto_cursor, softReset_cursor]

end Sys2Proof.Machine
end

section
/-! SUPPORT. The handlers of the bus (40_bus_dispatch.md, 41_protection.md): what each answers and writes, and what a
row of the same operations does. -/

namespace Sys2Proof.Machine

/-! ### A word and its two bytes (R52) -/

@[simp] theorem pairBytes_high_low (v : Word) : pairBytes (highByte v) (lowByte v) = v :=
  BitVec.extractLsb'_append_extractLsb'

@[simp] theorem lowByte_pairBytes (hi lo : Byte) : lowByte (pairBytes hi lo) = lo := BitVec.extractLsb'_append_eq_right

@[simp] theorem highByte_pairBytes (hi lo : Byte) : highByte (pairBytes hi lo) = hi := BitVec.extractLsb'_append_eq_left

/-! ### The non-volatile window (R104, R105) -/

theorem exec_nvramWr_of_clear {s : State} (h : s.nvwe = false) (k : Nat) (v : Word) :
    exec (.nvramWr k v) s = .next s :=
  congrArg Host.Outcome.next (if_neg (by rw [nvramWritable, h]; exact Bool.false_ne_true))

theorem exec_nvramWr_of_armed {s : State} (h : s.nvwe = true) (k : Nat) (v : Word) : exec (.nvramWr k v) s =
    .next ((s.writeNvram (byteIndex k) (lowByte v)).writeNvram (byteIndex k + 1) (highByte v)) :=
  congrArg Host.Outcome.next (if_pos h)

/-- The bytes after an armed NVRAM.WR. -/
theorem readNvram_write_pair (s : State) (k : Nat) (v : Word) (i : Nat) :
    ((s.writeNvram (byteIndex k) (lowByte v)).writeNvram (byteIndex k + 1) (highByte v)).readNvram i =
      if i = 2 * k then lowByte v else if i = 2 * k + 1 then highByte v else s.readNvram i := by
  simp only [State.readNvram, writeNvram_nvram, readCell_writeCell, byteIndex]
  by_cases h : i = 2 * k
  · rw [if_pos h, if_pos h, if_neg (by omega)]
  · rw [if_neg h, if_neg h]

/-- An armed NVRAM.WR is read back at its offset. -/
theorem read_pair_write_pair (s : State) (k : Nat) (v : Word) :
    let t := (s.writeNvram (byteIndex k) (lowByte v)).writeNvram (byteIndex k + 1) (highByte v)
    pairBytes (t.readNvram (byteIndex k + 1)) (t.readNvram (byteIndex k)) = v := by
  intro t
  rw [readNvram_write_pair, readNvram_write_pair]
  simp [byteIndex]

/-- Settles O12: the gate, the two bytes written one after the other, and the same two bytes read. -/
theorem nvramWriteGated : Obligations.NvramWriteGated := by
  unfold Obligations.NvramWriteGated
  intro k v s
  refine ⟨fun hw => exec_nvramWr_of_clear hw k v, fun hw =>
    ⟨_, exec_nvramWr_of_armed hw k v, readNvram_write_pair s k v, ?_⟩⟩
  exact congrArg (fun d => Host.Outcome.next (State.answer _ d)) (read_pair_write_pair s k v)

/-- Settles O11: the pairing is the bytes' concatenation. -/
theorem nvramReadPairsBytes : Obligations.NvramReadPairsBytes := by
  unfold Obligations.NvramReadPairsBytes
  exact fun _ _ => rfl

/-! ### Input ports (R108, R109) -/

/-- Settles O14: a complement is the difference from all ones. -/
theorem inputPortsAnswerTheSnapshot : Obligations.InputPortsAnswerTheSnapshot := by
  unfold Obligations.InputPortsAnswerTheSnapshot
  have hones : (0xFFFF : Word) = BitVec.allOnes 16 := by decide
  have hport (s : State) (v : Word) : answerPort s v = { s with rdata := some (0xFFFF - v) } := by
    rw [hones, BitVec.allOnes_sub_eq_not]
    rfl
  exact fun s => ⟨congrArg Host.Outcome.next (hport s _), congrArg Host.Outcome.next (hport s _),
    congrArg Host.Outcome.next (hport s _), rfl⟩

/-! ### The palette window (R110, R111) -/

/-- Settles O15: the answer is the entry itself. -/
theorem paletteReadReturnsRawEntry : Obligations.PaletteReadReturnsRawEntry := by
  unfold Obligations.PaletteReadReturnsRawEntry
  exact fun _ _ => rfl

/-- Settles O16: one write to each memory, and the window's writes are all PAL.WR of the masked index. -/
theorem paletteWriteUpdatesBothCells : Obligations.PaletteWriteUpdatesBothCells := by
  unfold Obligations.PaletteWriteUpdatesBothCells
  refine ⟨fun i v s => ⟨_, _, rfl, fun j => readCell_writeCell .., fun j => readCell_writeCell ..⟩,
    fun c a v hc hlo hhi => ?_⟩
  exact decode_bus_of_select (op := .palWr) v (Cfg.select_of_mem_range hc (h := .pal) hlo hhi rfl) (by decide)

/-! ### The control register and the graphics ROM (R112 to R114) -/

/-- Settles O17: the bank offset asks for the bank bit and the large image. -/
theorem controlWriteSetsBanks : Obligations.ControlWriteSetsBanks := by
  unfold Obligations.ControlWriteSetsBanks
  intro v s
  simp only [exec, execCtrlWr, controlVbank, controlBankOffset, controlGbank, Bool.and_eq_true]

/-- Settles O18: the pairing is the bytes' concatenation. -/
theorem gromReadAppliesSlotZero : Obligations.GromReadAppliesSlotZero := by
  unfold Obligations.GromReadAppliesSlotZero
  exact fun _ _ => rfl

/-- Settles O19: the low byte of the answer stands at the offset that the control word has chosen. -/
theorem bankBitSelectsTheImage : Obligations.BankBitSelectsTheImage := by
  unfold Obligations.BankBitSelectsTheImage
  intro v k s
  have hlow : ∀ hi lo : Byte, (pairBytes hi lo).extractLsb' 0 8 = lo := lowByte_pairBytes
  refine ⟨_, _, _, rfl, rfl, rfl, fun hb => ?_, fun hg hl => ?_⟩
  · rw [hlow]
    have hoff : controlBankOffset s.cfg v = 0 := by
      rw [controlBankOffset, if_neg]
      rcases hb with hb | hb <;> simp [controlGbank, hb]
    simp only [hoff, gromIndex, Nat.zero_add]
    rfl
  · rw [hlow]
    have hoff : controlBankOffset s.cfg v = s.cfg.gromHighOffset := by
      rw [controlBankOffset, if_pos]
      simp [controlGbank, hg, hl]
    simp only [hoff, gromIndex]
    rfl

/-! ### An operation repeated -/

/-- What each of the operations establishes for the next holds after all of them. -/
theorem repeatExec_induct {i : Instr} {P : Nat → State → Prop}
    (hstep : ∀ m s, P m s → ∃ t, exec i s = .next t ∧ P (m + 1) t) (n : Nat) {m : Nat} {s : State} (hs : P m s) :
    ∃ t, repeatExec i n s = .next t ∧ P (m + n) t := by
  induction n generalizing m s with
  | zero => exact ⟨s, rfl, hs⟩
  | succ n ih =>
    obtain ⟨t, ht, hP⟩ := hstep m s hs
    obtain ⟨u, hu, hQ⟩ := ih hP
    exact ⟨u, by simp only [repeatExec, ht, hu], by rwa [show m + (n + 1) = m + 1 + n by omega]⟩

/-! ### The sound ports (R115, R116) -/

/-- A poll answers ready exactly while polls are left, and takes one. -/
theorem exec_sndstRd (a : Addr) (s : State) : exec (.sndstRd a) s = .next { s with
    rdata := some (if 0 < s.sndack then s.cfg.sndReady else s.cfg.sndNotready), sndack := s.sndack - 1
    log := s.log ++ [⟨false, a, none⟩] } := by
  by_cases hz : s.sndack = 0
  · rw [if_neg (by omega), show s.sndack - 1 = s.sndack by omega]
    exact congrArg Host.Outcome.next (if_pos hz)
  · rw [if_pos (by omega)]
    exact congrArg Host.Outcome.next (if_neg hz)

/-- Settles O20: ready or not ready, by the counter. -/
theorem soundPollAnswers : Obligations.SoundPollAnswers := by
  unfold Obligations.SoundPollAnswers
  refine fun a s => ⟨s.log ++ [⟨false, a, none⟩], fun hpos => ?_, fun hz => ?_⟩
  · rw [exec_sndstRd, if_pos hpos]
  · rw [exec_sndstRd, if_neg (by omega), hz, Nat.zero_sub, ← hz]

/-- Settles O21: the log is the only other cell. -/
theorem soundLatchArmsTheCounter : Obligations.SoundLatchArmsTheCounter := by
  unfold Obligations.SoundLatchArmsTheCounter
  exact fun _ _ _ => ⟨_, rfl⟩

/-- Settles O22: the polls take the counter down from its full count. -/
theorem readyPollsAreCounted : Obligations.ReadyPollsAreCounted := by
  unfold Obligations.ReadyPollsAreCounted
  intro a b v n s t ht
  have hstart : t.sndack = s.cfg.sndackPolls - 0 ∧ t.cfg = s.cfg := by
    cases ht
    exact ⟨rfl, rfl⟩
  obtain ⟨u, hu, hack, hcfg⟩ := repeatExec_induct (i := .sndstRd b)
    (P := fun m u => u.sndack = s.cfg.sndackPolls - m ∧ u.cfg = s.cfg)
    (fun m u ⟨hack, hcfg⟩ => ⟨_, exec_sndstRd b u, by simp only [hack]; omega, hcfg⟩) n hstart
  refine ⟨u, _, hu, exec_sndstRd b u, ?_⟩
  simp only [hack, hcfg, Nat.zero_add, Nat.sub_pos_iff_lt]

/-! ### The protection coprocessor (R134, R135) -/

/-- Settles O27: every read advances the cursor by one around the table. -/
theorem protectionReadSequence : Obligations.ProtectionReadSequence := by
  unfold Obligations.ProtectionReadSequence
  intro n s b hcursor hb
  obtain ⟨t, ht, hc, hcfg⟩ := repeatExec_induct (i := .protRd)
    (P := fun m t => t.cursor = (s.cursor + m) % s.cfg.protTable.length ∧ t.cfg = s.cfg)
    (fun m t ⟨hc, hcfg⟩ => ⟨_, rfl, by simp only [hc, hcfg, Nat.mod_add_mod, Nat.add_assoc], hcfg⟩) n
    (m := 0) ⟨(Nat.mod_eq_of_lt hcursor).symm, rfl⟩
  rw [Nat.zero_add] at hc
  refine ⟨t, _, ht, hc, rfl, ?_⟩
  simp only [answer_rdata, hcfg, protResponse_of_getElem? (hc ▸ hb)]

/-- A challenge puts the cursor on an index that is the first match, or 0 where there is none. -/
theorem protCursor_eq {c : Cfg} {v : Word} {m : Nat} {b : Byte} (hb : c.protTable[m]? = some b)
    (h : (b.toNat = protKey c v ∧ ∀ j < m, ∀ b', c.protTable[j]? = some b' → b'.toNat ≠ protKey c v) ∨
      (m = 0 ∧ ∀ b' ∈ c.protTable, b'.toNat ≠ protKey c v)) : protCursor c v = m := by
  rcases protCursor_cases c v with ⟨⟨b₀, hb₀, hk₀⟩, hfirst⟩ | ⟨hnone, hzero⟩
  · rcases h with ⟨hk, hm⟩ | ⟨-, hno⟩
    · exact le_antisymm (not_lt.1 fun hlt => hfirst m hlt b hb hk) (not_lt.1 fun hlt => hm _ hlt b₀ hb₀ hk₀)
    · exact absurd hk₀ (hno b₀ (List.mem_of_getElem? hb₀))
  · rcases h with ⟨hk, -⟩ | ⟨hm, -⟩
    · exact absurd hk (hnone b (List.mem_of_getElem? hb))
    · rw [hzero, hm]

/-- Settles O28: the challenge leaves the cursor on the entry that the read answers. -/
theorem protectionWriteThenRead : Obligations.ProtectionWriteThenRead := by
  unfold Obligations.ProtectionWriteThenRead
  intro v s m b hb h
  have hcursor : protCursor s.cfg v = m := protCursor_eq hb h
  refine ⟨_, _, rfl, rfl, ?_⟩
  simp only [answer_rdata, hcursor, protResponse_of_getElem? hb]

end Sys2Proof.Machine
end

section
/-! SUPPORT. The encoder against the decoder (R70 to R74, R85 to R88): what the record of an operation decodes to, which
codes are rejected, that a transaction has one handler, and that the low address bits choose nothing. -/

namespace Sys2Proof

section
variable {c : Cfg}

/-! ### Decoding the record of an operation -/

/-- The transaction that reaches a word offset decodes to the row that stage 2 has for the handler and the offset. -/
theorem decode_encodeAt (hc : c.wf = true) {h : Handler} {rw : Bool} {k : Nat} {op : BusOp} (v : Word)
    (hk : k ≤ c.lastOffset h) (hd : h.admitsDir rw = true)
    (ho : decodeOpsel (BitVec.ofBool rw ++ selectCode (some h) ++ BitVec.ofNat 2 k) = some op) :
    decode c (encodeAt c h rw k v) = .ok (busOperands c op (BitVec.ofNat 32 (c.wordAddr h k)) v) := by
  have ha := Cfg.toNat_wordAddr hc hk
  refine decodeBus_busRecord (h := some h) (by rw [ha, Cfg.select_wordAddr hc hk hd]) ?_
  rwa [ha, Cfg.offsetOf, Cfg.wordOffset_wordAddr]

/-- The same for a handler with one row for every word offset. -/
theorem decode_encodeAt_oneRow (hc : c.wf = true) {h : Handler} {rw : Bool} {k : Nat} {op : BusOp} (v : Word)
    (hk : k ≤ c.lastOffset h) (hd : h.admitsDir rw = true)
    (ho : ∀ q : BitVec 2, decodeOpsel (BitVec.ofBool rw ++ selectCode (some h) ++ q) = some op) :
    decode c (encodeAt c h rw k v) = .ok (busOperands c op (BitVec.ofNat 32 (c.wordAddr h k)) v) :=
  decode_encodeAt hc v hk hd (ho _)

/-- The encoded address of a word offset has that word offset. -/
theorem Cfg.wordOffset_encoded (hc : c.wf = true) {h : Handler} {k : Nat} (hk : k ≤ c.lastOffset h) :
    c.wordOffset h (BitVec.ofNat 32 (c.wordAddr h k)).toNat = k := by
  rw [Cfg.toNat_wordAddr hc hk, Cfg.wordOffset_wordAddr]

/-- The encoded address of a palette entry has that entry's index. -/
theorem Cfg.paletteIndex_encoded (hc : c.wf = true) {i : Nat} (hi : i < c.palEntries)
    (hk : c.paletteOffset i ≤ c.lastOffset .pal) :
    c.paletteIndex (BitVec.ofNat 32 (c.wordAddr .pal (c.paletteOffset i))).toNat = i := by
  rw [Cfg.toNat_wordAddr hc hk, Cfg.paletteIndex_paletteOffset hc hi]

/-- A row whose operand is the word offset decodes the encoded offset to that operand. -/
theorem decode_encodeAt_offset (hc : c.wf = true) {h : Handler} {rw : Bool} {k : Nat} {op : BusOp} (f : Nat → Instr)
    (v : Word) (hk : k ≤ c.lastOffset h) (hd : h.admitsDir rw = true)
    (ho : ∀ q : BitVec 2, decodeOpsel (BitVec.ofBool rw ++ selectCode (some h) ++ q) = some op)
    (hf : ∀ a, busOperands c op a v = f (c.wordOffset h a.toNat)) :
    decode c (encodeAt c h rw k v) = .ok (f k) := by
  rw [decode_encodeAt_oneRow hc v hk hd ho, hf, Cfg.wordOffset_encoded hc hk]

/-- A row whose operand is the palette index decodes the encoded entry to that operand. -/
theorem decode_encodeAt_palette (hc : c.wf = true) {rw : Bool} {i : Nat} {op : BusOp} (f : Nat → Instr)
    (v : Word) (hi : i < c.palEntries ∧ c.paletteOffset i ≤ c.lastOffset .pal) (hd : Handler.admitsDir .pal rw = true)
    (ho : ∀ q : BitVec 2, decodeOpsel (BitVec.ofBool rw ++ selectCode (some .pal) ++ q) = some op)
    (hf : ∀ a, busOperands c op a v = f (c.paletteIndex a.toNat)) :
    decode c (encodeAt c .pal rw (c.paletteOffset i) v) = .ok (f i) := by
  rw [decode_encodeAt_oneRow hc v hi.2 hd ho, hf, Cfg.paletteIndex_encoded hc hi.1 hi.2]

/-- The address of a handler's register is selected in each direction that the handler admits. -/
theorem Cfg.select_of_holds (hc : c.wf = true) {h : Handler} {a : Addr} {rw : Bool} (ha : c.holds h a = true)
    (hd : h.admitsDir rw = true) : c.select a.toNat rw = some h := by
  simp only [Cfg.holds, Bool.and_eq_true, decide_eq_true_eq] at ha
  exact Cfg.select_of_mem_range hc ha.1 ha.2 hd

end

/-- Settles O3: a bus operation's address is that of its window's word, in reach of the row that stage 2 has for it; the
codes of the steps and of the moves are their own. -/
theorem decodeEncodeRoundTrip : Obligations.DecodeEncodeRoundTrip := by
  unfold Obligations.DecodeEncodeRoundTrip
  intro c i hc hw
  cases i <;> simp only [Instr.wellFormed, Bool.and_eq_true, decide_eq_true_eq, beq_iff_eq] at hw
  case dfltRd => exact decode_unclaimedRead 0 hw
  case dfltWr _ v => exact decode_unclaimedWrite v hw
  case vramRd => exact decode_encodeAt_offset hc (op := .vramRd) .vramRd 0 hw rfl (by decide) fun _ => rfl
  case vramWr _ v => exact decode_encodeAt_offset hc (op := .vramWr) (.vramWr · v) v hw rfl (by decide) fun _ => rfl
  case nvramRd => exact decode_encodeAt_offset hc (op := .nvramRd) .nvramRd 0 hw rfl (by decide) fun _ => rfl
  case nvramWr _ v => exact decode_encodeAt_offset hc (op := .nvramWr) (.nvramWr · v) v hw rfl (by decide) fun _ => rfl
  case gromRd => exact decode_encodeAt_offset hc (op := .gromRd) .gromRd 0 hw rfl (by decide) fun _ => rfl
  case palRd => exact decode_encodeAt_palette hc (op := .palRd) .palRd 0 hw rfl (by decide) fun _ => rfl
  case palWr _ v => exact decode_encodeAt_palette hc (op := .palWr) (.palWr · v) v hw rfl (by decide) fun _ => rfl
  case nvweWr => exact decode_encodeAt_oneRow hc (op := .nvweWr) 0 (Nat.zero_le _) rfl (by decide)
  case protRd => exact decode_encodeAt_oneRow hc (op := .protRd) 0 (Nat.zero_le _) rfl (by decide)
  case protWr v => exact decode_encodeAt_oneRow hc (op := .protWr) v (Nat.zero_le _) rfl (by decide)
  case ctrlWr v => exact decode_encodeAt_oneRow hc (op := .ctrlWr) v (Nat.zero_le _) rfl (by decide)
  case wdogWr => exact decode_encodeAt_oneRow hc (op := .wdogWr) 0 (Nat.zero_le _) rfl (by decide)
  case inputRd0 => exact decode_encodeAt hc (op := .inputRd0) 0 (Nat.zero_le _) rfl (by decide)
  case inputRd1 => exact decode_encodeAt hc (op := .inputRd1) 0 hw rfl (by decide)
  case inputRd2 => exact decode_encodeAt hc (op := .inputRd2) 0 hw rfl (by decide)
  case dipRd => exact decode_encodeAt hc (op := .dipRd) 0 hw rfl (by decide)
  case sndstRd => exact decode_bus_of_select (op := .sndstRd) 0 (Cfg.select_of_holds hc hw rfl) (by decide)
  case sndlatchWr _ v => exact decode_bus_of_select (op := .sndlatchWr) v (Cfg.select_of_holds hc hw rfl) (by decide)
  case scanline d => exact congrArg (fun d => Except.ok (Instr.scanline d)) (decodeDesc_encodeDesc d)
  all_goals rfl

/-! ### Reserved codes (R73, R86 to R88) -/

/-- A phase code decodes to a step exactly when it is not rejected. -/
theorem decodeSeq_ok_iff (p : BitVec 4) : (∃ i, decodeSeq p = .ok i) ↔ p < 13#4 := by
  trans (decodeSeq p).toBool = true
  · cases decodeSeq p <;> simp [Except.toBool]
  · revert p
    decide

theorem rejectMove_eq_invalidMove_iff (code : BitVec 4) : rejectMove code = .error .invalidMove ↔ 11#4 ≤ code := by
  revert code; decide

theorem rejectMove_eq_wrongOperand {code : BitVec 4} (h : code < 11#4) : rejectMove code = .error .wrongOperand := by
  revert code; decide

/-- A move, for a code that has a row, or the code's rejection (R87, R88). -/
def DecodesOrRejects (code : BitVec 4) (o : Except DecodeError Instr) : Prop :=
  (code < 11#4 ∧ ∃ i, o = .ok i) ∨ o = rejectMove code

theorem decodesOrRejects_ite {code n : BitVec 4} {i : Instr} {o : Except DecodeError Instr} (hn : n < 11#4)
    (ho : DecodesOrRejects code o) : DecodesOrRejects code (if code = n then .ok i else o) := by
  by_cases hc : code = n
  · rw [if_pos hc]
    exact .inl ⟨hc ▸ hn, i, rfl⟩
  · rwa [if_neg hc]

/-- Each kind of operand has its codes, all below 11, and rejects every other code. -/
theorem decodesOrRejects_decodeEnv (code : BitVec 4) (arg : EnvArg) : DecodesOrRejects code (decodeEnv code arg) := by
  have hreject : DecodesOrRejects code (rejectMove code) := .inr rfl
  cases arg with
  | none =>
    exact decodesOrRejects_ite (by decide) (decodesOrRejects_ite (by decide)
      (decodesOrRejects_ite (by decide) (decodesOrRejects_ite (by decide) hreject)))
  | bit => exact decodesOrRejects_ite (by decide) (decodesOrRejects_ite (by decide) hreject)
  | inputs | image | dma | desc | powerOn => exact decodesOrRejects_ite (by decide) hreject

/-- Settles O6: stage 2 and the phase codes by their tables, the moves by the codes that their operands have. -/
theorem reservedCodesRejected : Obligations.ReservedCodesRejected := by
  unfold Obligations.ReservedCodesRejected
  refine ⟨by decide, fun p => ⟨by revert p; decide, decodeSeq_ok_iff p⟩, fun code arg => ?_, fun _ => rfl, rfl,
    fun _ => rfl, rfl, fun _ _ _ _ _ => rfl, rfl, fun _ => rfl, fun _ => rfl, fun _ => rfl, fun _ => rfl, rfl⟩
  rcases decodesOrRejects_decodeEnv code arg with ⟨hlt, i, hi⟩ | hr
  · exact ⟨by simp [hi, BitVec.not_le.2 hlt], fun _ => .inr ⟨i, hi⟩⟩
  · rw [hr]
    exact ⟨rejectMove_eq_invalidMove_iff code, fun hlt => .inl (rejectMove_eq_wrongOperand hlt)⟩

/-- Settles O7: each word is evaluated. -/
theorem transactionsOfTheSpecDecode : Obligations.TransactionsOfTheSpecDecode := by
  unfold Obligations.TransactionsOfTheSpecDecode
  decide +kernel

/-! ### One handler answers (R71, R100) -/

/-- Settles O5: stage 1 finds a handler that claims, and no other claims beside it. -/
theorem exactlyOneHandlerAnswers : Obligations.ExactlyOneHandlerAnswers := by
  unfold Obligations.ExactlyOneHandlerAnswers
  intro c a rw hc
  refine ⟨fun h => ⟨Cfg.claims_of_select, Cfg.select_of_claims hc⟩, ?_⟩
  simp only [Cfg.select, List.find?_eq_none, Bool.not_eq_true]
  exact ⟨fun hn h => hn h (mem_handlersInOrder h), fun hn h _ => hn h⟩

/-- Stage 2 finds a row for every transaction, in its direction and of the handler that stage 1 selects. -/
theorem decodeOpsel_opselOf (c : Cfg) (x : Nat) (rw : Bool) :
    ∃ op, decodeOpsel (c.opselOf rw x) = some op ∧ op.handler = c.select x rw := by
  obtain ⟨op, ho, hh, -, -⟩ := decodeOpsel_selected (h := c.select x rw) (rw := rw)
    (fun g hg => ((Cfg.claims_iff _ _ _).1 (Cfg.claims_of_select hg)).2.2) _
  exact ⟨op, ho, hh⟩

/-! ### The low address bits (R56) -/

section
variable {c : Cfg} {x y : Nat}

/-- Whether an address lies in a handler's range depends on its word alone, since the range begins and ends on a word
boundary (R7 e). -/
theorem Cfg.mem_range_iff (hc : c.wf = true) (h : Handler) (x : Nat) :
    (c.range h).lo ≤ x ∧ x ≤ (c.range h).hi ↔
      (c.range h).lo >>> c.addrShift ≤ x >>> c.addrShift ∧
        x >>> c.addrShift < ((c.range h).hi + 1) >>> c.addrShift := by
  have hr := Cfg.wf_rangeWf hc h
  simp only [Cfg.rangeWf, Bool.and_eq_true, decide_eq_true_eq] at hr
  obtain ⟨⟨-, hlo⟩, hhi⟩ := hr
  have hpos : 0 < 2 ^ c.addrShift := Nat.two_pow_pos _
  simp only [Nat.shiftRight_eq_div_pow]
  rw [Nat.le_div_iff_mul_le hpos, Nat.div_lt_iff_lt_mul hpos, Nat.div_mul_cancel (Nat.dvd_of_mod_eq_zero hlo),
    Nat.div_mul_cancel (Nat.dvd_of_mod_eq_zero hhi), Nat.lt_succ_iff]

variable (hc : c.wf = true) (hxy : x >>> c.addrShift = y >>> c.addrShift)
include hc hxy

theorem Cfg.claims_congr (h : Handler) (rw : Bool) : c.claims h x rw = c.claims h y rw := by
  rw [Bool.eq_iff_iff, Cfg.claims_iff, Cfg.claims_iff, ← and_assoc, ← and_assoc, Cfg.mem_range_iff hc,
    Cfg.mem_range_iff hc, hxy]

theorem Cfg.select_congr (rw : Bool) : c.select x rw = c.select y rw := by
  simp only [Cfg.select, Cfg.claims_congr hc hxy]

theorem Cfg.wordOffset_congr {h : Handler} {rw : Bool} (hs : c.select x rw = some h) :
    c.wordOffset h x = c.wordOffset h y := by
  have hx := (Cfg.claims_iff _ _ _).1 (Cfg.claims_of_select hs)
  have hy := (Cfg.claims_iff _ _ _).1 (Cfg.claims_of_select (Cfg.select_congr hc hxy rw ▸ hs))
  rw [Cfg.shiftRight_addrShift hc hx.1, Cfg.shiftRight_addrShift hc hy.1] at hxy
  exact Nat.add_left_cancel hxy

theorem Cfg.opselOf_congr (rw : Bool) : c.opselOf rw x = c.opselOf rw y := by
  have ho : c.offsetOf (c.select x rw) x = c.offsetOf (c.select x rw) y := by
    cases hs : c.select x rw with
    | none => rfl
    | some h => exact Cfg.wordOffset_congr hc hxy hs
  simp only [Cfg.opselOf, ← Cfg.select_congr hc hxy rw, ho]

end

end Sys2Proof

namespace Sys2Proof.Machine

/-- At two addresses of one bus word a row has the same effect, the log apart: the operands that are offsets or indexes
are equal, and the others are only logged. -/
theorem exec_busOperands_congr {c : Cfg} (hc : c.wf = true) {rw : Bool} {a b : Addr} {op : BusOp} (v : Word) (s : State)
    (hab : a.toNat >>> c.addrShift = b.toNat >>> c.addrShift) (hs : op.handler = c.select a.toNat rw) :
    ∃ t l, exec (busOperands c op a v) s = .next t ∧ exec (busOperands c op b v) s = .next { t with log := l } := by
  cases op
  case dfltRd | dfltWr | sndlatchWr => exact ⟨_, _, rfl, rfl⟩
  case sndstRd => exact ⟨_, _, exec_sndstRd a s, exec_sndstRd b s⟩
  case palRd | palWr =>
    simp only [busOperands, Cfg.paletteIndex, hab]
    exact ⟨_, _, rfl, rfl⟩
  case vramRd | vramWr | nvramRd | nvramWr | gromRd =>
    simp only [busOperands, Cfg.wordOffset_congr hc hab hs.symm]
    exact ⟨_, _, rfl, rfl⟩
  case nvweWr | inputRd0 | inputRd1 | inputRd2 | dipRd | protRd | protWr | ctrlWr | wdogWr =>
    exact ⟨_, _, rfl, rfl⟩

/-- Settles O8: stage 1 and stage 2 see only the bus word, and so does the operation. -/
theorem lowAddressBitsIgnored : Obligations.LowAddressBitsIgnored := by
  unfold Obligations.LowAddressBitsIgnored
  intro c rw a b v hc hab
  obtain ⟨op, ho, hs⟩ := decodeOpsel_opselOf c a.toNat rw
  refine ⟨_, _, ?_, ?_, fun s => exec_busOperands_congr hc v s hab hs⟩
  · simp only [decode, decodeBus, busRw_busRecord, busAddr_busRecord, busData_busRecord, ho]
  · simp only [decode, decodeBus, busRw_busRecord, busAddr_busRecord, busData_busRecord, ← Cfg.opselOf_congr hc hab, ho]

end Sys2Proof.Machine
end

section
/-! SUPPORT. Video (42_video.md): the two lanes of a video word, the DMA agent, the scanline, the palette and the
blit. -/

namespace Sys2Proof.Machine

/-! ### Lanes (R142 to R144) -/

/-- The bank flag chooses the same half of both words. -/
theorem pairBytes_selectedLane (b : Bool) (v w : Word) : pairBytes (selectedLane b v) (selectedLane b w) =
    if b = true then v.extractLsb' 0 8 ++ w.extractLsb' 0 8 else v.extractLsb' 8 8 ++ w.extractLsb' 8 8 := by
  cases b <;> rfl

/-- Settles O30: both halves of the answer are the selected lanes. -/
theorem videoReadSelectsLanes : Obligations.VideoReadSelectsLanes := by
  unfold Obligations.VideoReadSelectsLanes
  exact fun k s => congrArg (fun d => Host.Outcome.next (s.answer d)) (pairBytes_selectedLane ..)

/-- Two words that follow each other are two words, whatever the size of the memory. -/
theorem videoWord_ne {c : Cfg} (h : 2 ≤ c.vramWords) (k : Nat) : videoWord1 c k ≠ videoWord0 c k := by
  intro e
  have h1 := Nat.sub_mod_eq_zero_of_mod_eq e
  rw [Nat.add_sub_cancel_left, Nat.mod_eq_of_lt (by omega)] at h1
  exact absurd h1 one_ne_zero

/-- Reading through the bank flag that was written through gives the written byte. -/
@[simp] theorem selectedLane_laneWritten (b : Bool) (latch old : Word) (x : Byte) :
    selectedLane b (laneWritten b latch old x) = x := by
  cases b <;> simp [selectedLane, laneWritten]

/-- The state after VRAM.WR. -/
def vramWritten (k : Nat) (v : Word) (s : State) : State :=
  (s.writeVram (videoWord0 s.cfg k)
      (laneWritten s.vbank s.pallatch (s.readVram (videoWord0 s.cfg k)) (lowByte v))).writeVram
    (videoWord1 s.cfg k) (laneWritten s.vbank s.pallatch (s.readVram (videoWord1 s.cfg k)) (highByte v))

theorem exec_vramWr (k : Nat) (v : Word) (s : State) : exec (.vramWr k v) s = .next (vramWritten k v s) := rfl

section
variable {s : State} (h : 2 ≤ s.cfg.vramWords) (k : Nat) (v : Word)
include h

/-- The words after VRAM.WR: one lane of the two words is written. -/
theorem readVram_vramWritten (i : Nat) : (vramWritten k v s).readVram i =
    if i = videoWord0 s.cfg k then laneWritten s.vbank s.pallatch (s.readVram i) (lowByte v)
    else if i = videoWord1 s.cfg k then laneWritten s.vbank s.pallatch (s.readVram i) (highByte v)
    else s.readVram i := by
  have hne := videoWord_ne h k
  simp only [vramWritten, State.readVram, writeVram_vram, readCell_writeCell]
  by_cases h0 : i = videoWord0 s.cfg k
  · subst h0
    rw [if_neg hne.symm, if_pos rfl, if_pos rfl]
  · rw [if_neg h0, if_neg h0]
    split
    · next h1 => rw [h1]
    · rfl

theorem readVram_vramWritten_word0 : (vramWritten k v s).readVram (videoWord0 s.cfg k) =
    laneWritten s.vbank s.pallatch (s.readVram (videoWord0 s.cfg k)) (lowByte v) := by
  rw [readVram_vramWritten h, if_pos rfl]

theorem readVram_vramWritten_word1 : (vramWritten k v s).readVram (videoWord1 s.cfg k) =
    laneWritten s.vbank s.pallatch (s.readVram (videoWord1 s.cfg k)) (highByte v) := by
  rw [readVram_vramWritten h, if_neg (videoWord_ne h k), if_pos rfl]

end

/-- Settles O31: the written lanes of the two words, with the stamp or the kept lane beside them. -/
theorem videoWriteStampsOrKeeps : Obligations.VideoWriteStampsOrKeeps := by
  unfold Obligations.VideoWriteStampsOrKeeps
  exact fun k v s h => ⟨(vramWritten k v s).vram, rfl, readVram_vramWritten h k v⟩

/-- Settles O32: what the written lanes show through either bank flag. -/
theorem laneLaw : Obligations.LaneLaw := by
  unfold Obligations.LaneLaw
  intro k v s h
  have h0 := readVram_vramWritten_word0 h k v
  have h1 := readVram_vramWritten_word1 h k v
  refine ⟨_, rfl, ⟨_, rfl, ?_⟩, fun hb i => ?_, fun hb => ⟨_, rfl, ?_⟩⟩
  · change some (pairBytes (selectedLane s.vbank ((vramWritten k v s).readVram (videoWord1 s.cfg k)))
      (selectedLane s.vbank ((vramWritten k v s).readVram (videoWord0 s.cfg k)))) = some v
    rw [h0, h1, selectedLane_laneWritten, selectedLane_laneWritten, pairBytes_high_low]
  · change lowByte ((vramWritten k v s).readVram i) = lowByte (s.readVram i)
    rw [readVram_vramWritten h]
    split_ifs <;> simp [laneWritten, hb]
  · change some (pairBytes (highByte ((vramWritten k v s).readVram (videoWord1 s.cfg k)))
      (highByte ((vramWritten k v s).readVram (videoWord0 s.cfg k)))) = some _
    rw [h0, h1, hb]
    simp only [laneWritten, if_true, highByte_pairBytes]
    rfl

/-! ### The DMA agent (R145) -/

/-- Read after a list of writes: the last write of the cell stands. -/
theorem readCell_writeCells {w : Nat} (drawn : Nat → Nat → BitVec w) (m : Memory w) (l : List (Nat × BitVec w))
    (i : Nat) : readCell drawn (writeCells m l) i =
      ((l.reverse.find? fun p => p.1 == i).map Prod.snd).getD (readCell drawn m i) := by
  induction l generalizing m with
  | nil => rfl
  | cons p rest ih =>
    rw [writeCells, ih, readCell_writeCell, List.reverse_cons, List.find?_append]
    cases rest.reverse.find? fun p => p.1 == i with
    | some q => rfl
    | none =>
      by_cases hp : p.1 = i
      · simp [hp]
      · simp [hp, eq_comm (a := i)]

/-- Settles O33: the move's writes, in order. -/
theorem dmaWritesWordsAndLatch : Obligations.DmaWritesWordsAndLatch := by
  unfold Obligations.DmaWritesWordsAndLatch
  exact fun m s => ⟨_, rfl, fun i => readCell_writeCells ..⟩

/-! ### The scanline (R146, R148) -/

/-- Settles O34: the loop fills the line's cells from the row, and the loop is all that SCANLINE does. -/
theorem scanlineCopiesTheRow : Obligations.ScanlineCopiesTheRow := by
  unfold Obligations.ScanlineCopiesTheRow
  intro d s
  obtain ⟨m, hm⟩ := drawLine_frame d s
  refine ⟨m, congrArg Host.Outcome.next hm, fun y j hj => ?_⟩
  have hcell := readPixbuf_drawLine d s y j hj
  rw [hm] at hcell
  rw [hcell]
  refine if_congr ?_ ?_ rfl
  · constructor
    · rintro ⟨hb, rfl, hy, hn⟩
      exact ⟨hb, hy, rfl, hn⟩
    · rintro ⟨hb, hy, rfl, hn⟩
      exact ⟨hb, rfl, hy, hn⟩
  · simp only [significantBits, columnWord, rowBase, firstColumn, Nat.shiftLeft_eq]
    rfl

/-- Settles O35: both the shifted row address and the mask are multiples of 512, and the mask lies in the memory. -/
theorem scanlineStaysInItsRow : Obligations.ScanlineStaysInItsRow := by
  unfold Obligations.ScanlineStaysInItsRow
  intro c d col hc
  have hv := Cfg.wf_videoWf hc
  simp only [Cfg.videoWf, Bool.and_eq_true, decide_eq_true_eq] at hv
  obtain ⟨⟨⟨⟨⟨⟨⟨⟨⟨-, hsize⟩, hwords⟩, hmask⟩, hrow⟩, -⟩, -⟩, -⟩, -⟩, -⟩ := hv
  have hbase : rowBase c d % 2 ^ 9 = 0 := by
    rw [rowBase, Nat.and_mod_two_pow, show c.rowBaseMask % 2 ^ 9 = 0 from hrow, Nat.and_zero]
  have hle : rowBase c d ≤ c.vramWords - 1 :=
    calc rowBase c d ≤ c.rowBaseMask := Nat.and_le_right
      _ = c.rowBaseMask &&& (c.vramWords - 1) := hmask.symm
      _ ≤ c.vramWords - 1 := Nat.and_le_right
  simp only [columnWord, Config.ring] at hwords ⊢
  omega

/-! ### Palette and blit (R150 to R154) -/

/-- FT.PALRC recalculates when a surface is bound and the dirty flag set (R183). -/
theorem exec_ftPalrc_of_dirty {s : State} (hb : s.surfaceBound = true) (hd : s.paldirty = true) :
    exec .ftPalrc s = .next ((recalcPalette s).goto .blit) := by
  simp [exec, execFtPalrc, hb, hd]

/-- FT.PALRC only goes on otherwise. -/
theorem exec_ftPalrc_of_not {s : State} (h : s.surfaceBound = false ∨ s.paldirty = false) :
    exec .ftPalrc s = .next (s.goto .blit) := by
  rcases h with h | h <;> simp [exec, execFtPalrc, h]

/-- FT.BLIT shows the row buffer when a surface is bound (R184). -/
theorem exec_ftBlit_of_bound {s : State} (hb : s.surfaceBound = true) :
    exec .ftBlit s = .next ((blitSurface s).goto .done) := by
  simp [exec, execFtBlit, hb]

/-- FT.BLIT only goes on otherwise. -/
theorem exec_ftBlit_of_unbound {s : State} (hb : s.surfaceBound = false) : exec .ftBlit s = .next (s.goto .done) := by
  simp [exec, execFtBlit, hb]

/-- Settles O36: the recalculation fills the cache, and without it only the phase changes. -/
theorem recalculationWhenBoundAndDirty : Obligations.RecalculationWhenBoundAndDirty := by
  unfold Obligations.RecalculationWhenBoundAndDirty
  refine fun s => ⟨fun hb hd => ⟨_, exec_ftPalrc_of_dirty hb hd, fun i hi => readPalcache_recalcPalette s hi⟩,
    exec_ftPalrc_of_not⟩

/-- PAL.WR makes its own entry agree (R153). -/
theorem paletteAgrees_palWr (i : Nat) (v : Word) (s : State) :
    ((s.writePalram i v).writePalcache i (s.cfg.colorOf v)).paletteAgrees i := by
  simp [State.paletteAgrees, State.readPalcache, State.readPalram]

/-- Settles O37: the recalculation keeps the raw entry, and PAL.WR has left its colour. -/
theorem paletteWriteAgreesWithRecalculation : Obligations.PaletteWriteAgreesWithRecalculation := by
  unfold Obligations.PaletteWriteAgreesWithRecalculation
  intro i v s hi
  let t := (s.writePalram i v).writePalcache i (s.cfg.colorOf v)
  refine ⟨t, _, rfl, exec_ftPalrc_of_dirty rfl rfl, ?_, ?_⟩
  · exact (readCell_writeCell ..).trans (if_pos rfl)
  · exact (readPalcache_recalcPalette { t with surfaceBound := true, paldirty := true } hi).trans
      (paletteAgrees_palWr i v s).symm

/-- Settles O39: the blit fills the surface, and without it only the phase changes. -/
theorem blitWhenBound : Obligations.BlitWhenBound := by
  unfold Obligations.BlitWhenBound
  refine fun s => ⟨fun hb => ⟨_, exec_ftBlit_of_bound hb, fun y x hy hx => readHostsurf_blitSurface s hy hx⟩,
    exec_ftBlit_of_unbound⟩

/-- Settles O40: the line puts the word's colour bits into the row buffer, and the blit looks up their entry. -/
theorem pixelPathEndToEnd : Obligations.PixelPathEndToEnd := by
  unfold Obligations.PixelPathEndToEnd
  intro d s j i hb hrow hj hn hi hagree
  obtain ⟨m, hm⟩ := drawLine_frame d s
  have hcell := readPixbuf_drawLine d s d.rowAddress.toNat j hj
  rw [hm, if_pos ⟨hb, rfl, hrow, hn⟩] at hcell
  refine ⟨{ s with pixbuf := m }, _, congrArg Host.Outcome.next hm, exec_ftBlit_of_bound hb, ?_⟩
  have hindex : pixelIndex s.cfg (State.readPixbuf { s with pixbuf := m } d.rowAddress.toNat j) = i := by
    rw [hcell, hi]
    simp only [pixelIndex, significantBits, BitVec.toNat_setWidth, columnWord, rowBase, firstColumn, Nat.shiftLeft_eq]
    rfl
  calc State.readHostsurf (blitSurface { s with pixbuf := m }) d.rowAddress.toNat j
      = s.readPalcache (pixelIndex s.cfg (State.readPixbuf { s with pixbuf := m } d.rowAddress.toNat j)) :=
        readHostsurf_blitSurface _ hrow hj
    _ = s.cfg.colorOf (s.readPalram i) := by rw [hindex, hagree]

end Sys2Proof.Machine
end

section
/-! SUPPORT. The steps of the sequencer one by one (43_frame_timing.md), the run steps apart. -/

namespace Sys2Proof.Machine

variable {s : State}

/-! ### The opening of a frame (R170 to R174) -/

theorem exec_ftStart_of_go (h : s.frameGo = true) : exec .ftStart s = .next (s.goto .rstchk) :=
  congrArg Host.Outcome.next (if_pos h)

theorem exec_ftStart_of_wait (h : s.frameGo = false) : exec .ftStart s = .next s :=
  congrArg Host.Outcome.next (if_neg (by rw [h]; exact Bool.false_ne_true))

theorem exec_ftRstchk_of_pending (h : s.resetPending = true) : exec .ftRstchk s = .next { s with
    cursor := 0, sndack := 0, resetPending := false, phase := .insnap
    events := s.events ++ [.procReset .p0, .procReset .p1]
    pallatch := Config.drawPallatch (s.draw + 1), draw := s.draw + 1 } := by
  rw [exec, execFtRstchk_of_pending h, softReset_eq]
  rfl

theorem exec_ftRstchk_of_none (h : s.resetPending = false) : exec .ftRstchk s = .next (s.goto .insnap) :=
  congrArg (fun t => Host.Outcome.next (State.goto t .insnap)) (if_neg (by rw [h]; exact Bool.false_ne_true))

/-- Settles O41: FT.START is a test of `FRAME_GO`. -/
theorem frameStartWaitsForGo : Obligations.FrameStartWaitsForGo := by
  unfold Obligations.FrameStartWaitsForGo
  exact fun s => ⟨exec_ftStart_of_go, exec_ftStart_of_wait⟩

/-- Settles O42: FT.RSTCHK is a test of the request. -/
theorem resetCheckPerformsSoftReset : Obligations.ResetCheckPerformsSoftReset := by
  unfold Obligations.ResetCheckPerformsSoftReset
  exact fun s => ⟨fun h => ⟨_, _, exec_ftRstchk_of_pending h⟩, exec_ftRstchk_of_none⟩

/-- Settles O43: the step is the four copies. -/
theorem inputSnapshotLatched : Obligations.InputSnapshotLatched := by
  unfold Obligations.InputSnapshotLatched
  exact fun _ => rfl

/-- Settles O44: the step is the four zeros. -/
theorem accumulatorsCleared : Obligations.AccumulatorsCleared := by
  unfold Obligations.AccumulatorsCleared
  exact fun _ => rfl

/-! ### The run steps (R175 to R177) -/

section
variable {p : Proc} {after : Phase} {g : Grant}

theorem runGranted_of_returned (h : s.returned = true) : runGranted p after g s =
    { s.setCycDone p (s.cycDone p + max g.cycles (ranSoFar p g s)) with grant := none, phase := after } :=
  if_pos h

theorem runGranted_of_running (h : s.returned = false) :
    runGranted p after g s = { s with grant := some { g with ran := ranSoFar p g s } } :=
  if_neg (by rw [h]; exact Bool.false_ne_true)

theorem runStep_of_grant (h : s.grant = some g) : runStep p after s = runGranted p after g s := by
  simp only [runStep, h]

theorem runStep_of_target (h : s.grant = none) (ht : s.cfg.target p s.slice ≤ s.cycDone p) :
    runStep p after s = s.goto after := by
  simp only [runStep, h, Nat.sub_eq_zero_of_le ht, lt_irrefl, if_false]

theorem runStep_of_request {n : Nat} (h : s.grant = none) (hn : 0 < n)
    (ht : s.cycDone p + n = s.cfg.target p s.slice) :
    runStep p after s = runGranted p after ⟨p, n, 0⟩ (s.emit (.run p n)) := by
  simp only [runStep, h, ← ht, Nat.add_sub_cancel_left, hn, if_true]

end

/-! ### The slice (R178 to R180) -/

theorem exec_ftAudio (s : State) : exec .ftAudio s = .next { s with
    events := s.events ++ (if 0 < s.cfg.sampleShare then [.audioRender s.cfg.sampleShare] else [])
    audDone := s.audDone + s.cfg.sampleShare, phase := .next } := by
  rw [exec, execFtAudio, renderAudio_eq]
  rfl

theorem exec_ftNext_of_more (h : s.slice + 1 < s.cfg.sliceCount) :
    exec .ftNext s = .next { s with slice := s.slice + 1, phase := .run0 } := by
  simp only [exec, execFtNext, h, if_true]

theorem exec_ftNext_of_last (h : s.cfg.sliceCount ≤ s.slice + 1) :
    exec .ftNext s = .next { s with slice := s.slice + 1, phase := .flush } := by
  simp only [exec, execFtNext, Nat.not_lt.2 h, if_false]

/-- Settles O46: the step draws the decoded descriptor's line. -/
theorem scanStepPerformsTheLine : Obligations.ScanStepPerformsTheLine := by
  unfold Obligations.ScanStepPerformsTheLine
  exact fun _ => ⟨_, rfl, rfl⟩

/-- Settles O47: the share of a slice is rendered and counted. -/
theorem audioSliceRendersTheShare : Obligations.AudioSliceRendersTheShare := by
  unfold Obligations.AudioSliceRendersTheShare
  exact exec_ftAudio

/-- Settles O48: one more slice, or the flush. -/
theorem lineCounterAdvances : Obligations.LineCounterAdvances := by
  unfold Obligations.LineCounterAdvances
  exact fun s => ⟨exec_ftNext_of_more, exec_ftNext_of_last⟩

/-! ### The end of a frame (R182, R185) -/

theorem exec_ftFlush (s : State) : exec .ftFlush s = .next { s with
    events := s.events ++
      (if 0 < s.cfg.frameSamples - s.audDone then [.audioRender (s.cfg.frameSamples - s.audDone)] else [])
    audDone := s.cfg.frameSamples, phase := .palrc } := by
  rw [exec, execFtFlush, renderAudio_eq]
  rfl

/-- Settles O49: what is rendered is the difference, if there is one. -/
theorem flushFillsTheBuffer : Obligations.FlushFillsTheBuffer := by
  unfold Obligations.FlushFillsTheBuffer
  refine fun s => ⟨fun h => ?_, fun h => ?_⟩
  · rw [exec_ftFlush, if_pos (by omega)]
  · rw [exec_ftFlush, if_neg (by omega), List.append_nil]

/-- Settles O50: the counter is a 32-bit word. -/
theorem frameDoneCounts : Obligations.FrameDoneCounts := by
  unfold Obligations.FrameDoneCounts
  exact fun s => ⟨s.framecnt + 1, BitVec.toNat_add .., rfl⟩

end Sys2Proof.Machine
end

section
/-! SUPPORT. What each operation leaves unchanged (R20, R119, R137): the form of the operations that have cases, then,
once for all operations, which writes which cell. -/

namespace Sys2Proof.Machine

section
variable (s : State)

theorem exec_nvramWr_frame (k : Nat) (v : Word) : ∃ m, exec (.nvramWr k v) s = .next { s with nvram := m } := by
  rcases Bool.eq_false_or_eq_true s.nvwe with h | h
  · exact ⟨_, exec_nvramWr_of_armed h k v⟩
  · exact ⟨s.nvram, exec_nvramWr_of_clear h k v⟩

theorem exec_ftStart_frame : ∃ p, exec .ftStart s = .next { s with phase := p } := by
  rcases Bool.eq_false_or_eq_true s.frameGo with h | h
  · exact ⟨_, exec_ftStart_of_go h⟩
  · exact ⟨s.phase, exec_ftStart_of_wait h⟩

theorem exec_ftRstchk_frame : ∃ cursor ack pending draw latch events, exec .ftRstchk s = .next { s with
    cursor := cursor, sndack := ack, resetPending := pending, draw := draw, pallatch := latch, events := events
    phase := .insnap } := by
  rcases Bool.eq_false_or_eq_true s.resetPending with h | h
  · exact ⟨_, _, _, _, _, _, exec_ftRstchk_of_pending h⟩
  · exact ⟨s.cursor, s.sndack, s.resetPending, s.draw, s.pallatch, s.events, exec_ftRstchk_of_none h⟩

theorem exec_ftRun0_frame : ∃ n g p events, exec .ftRun0 s = .next { s with
    cycDone0 := n, grant := g, phase := p, events := events } := by
  obtain ⟨n, g, p, events, e⟩ := runStep_frame .p0 .run1 s
  exact ⟨n, g, p, events, congrArg Host.Outcome.next e⟩

theorem exec_ftRun1_frame : ∃ n g p events, exec .ftRun1 s = .next { s with
    cycDone1 := n, grant := g, phase := p, events := events } := by
  obtain ⟨n, g, p, events, e⟩ := runStep_frame .p1 .scan s
  exact ⟨n, g, p, events, congrArg Host.Outcome.next e⟩

theorem exec_ftNext_frame : ∃ p, exec .ftNext s = .next { s with slice := s.slice + 1, phase := p } := ⟨_, rfl⟩

theorem exec_scanline_frame (d : Desc) : ∃ m, exec (.scanline d) s = .next { s with pixbuf := m } := by
  obtain ⟨m, hm⟩ := drawLine_frame d s
  exact ⟨m, congrArg Host.Outcome.next hm⟩

theorem exec_ftScan_frame : ∃ m, exec .ftScan s = .next { s with pixbuf := m, phase := .audio } := by
  obtain ⟨m, hm⟩ := drawLine_frame (decodeDesc s.desc) s
  exact ⟨m, congrArg (fun t => Host.Outcome.next (State.goto t .audio)) hm⟩

theorem exec_ftPalrc_frame :
    ∃ m dirty, exec .ftPalrc s = .next { s with palcache := m, paldirty := dirty, phase := .blit } := by
  by_cases h : s.surfaceBound = true ∧ s.paldirty = true
  · exact ⟨_, false, exec_ftPalrc_of_dirty h.1 h.2⟩
  · exact ⟨s.palcache, s.paldirty, exec_ftPalrc_of_not (by simpa [imp_iff_not_or] using h)⟩

theorem exec_ftBlit_frame : ∃ m, exec .ftBlit s = .next { s with hostsurf := m, phase := .done } := by
  rcases Bool.eq_false_or_eq_true s.surfaceBound with h | h
  · exact ⟨_, exec_ftBlit_of_bound h⟩
  · exact ⟨s.hostsurf, exec_ftBlit_of_unbound h⟩

end

/-- The state after a restore that is taken (R210). -/
def restoredState (img : SavedImage) (s : State) : State :=
  { s with
    nvram := img.nvram, palram := img.palram, palcache := img.palcache, vram := img.vram
    vbank := img.vbank, gbankOff0 := img.gbankOff0, gbankOff1 := img.gbankOff1
    ctrlval := img.ctrlval, nvwe := img.nvwe, pallatch := img.pallatch }

theorem exec_hRestore_of_fits {img : SavedImage} {s : State} (h : imageFits s.cfg img = true) :
    exec (.hRestore img) s = .next (restoredState img s) :=
  if_pos h

theorem exec_hRestore_next {img : SavedImage} {s t : State} (h : exec (.hRestore img) s = .next t) :
    imageFits s.cfg img = true ∧ t = restoredState img s := by
  by_cases hf : imageFits s.cfg img = true
  · cases (exec_hRestore_of_fits hf).symm.trans h
    exact ⟨hf, rfl⟩
  · cases (if_neg hf : exec (.hRestore img) s = .refused .imageMismatch).symm.trans h

/-- The state after a power-on that is taken (R221). -/
def poweredState (p : PowerOn) (s : State) : State :=
  ((powerOnState p (s.draw + 1) s).emit (.procReset .p0)).emit (.procReset .p1)

theorem exec_hPoweron_of_wf {p : PowerOn} (h : p.cfg.wf = true) (s : State) :
    exec (.hPoweron p) s = .next (poweredState p s) :=
  if_pos h

theorem exec_hPoweron_next {p : PowerOn} {s t : State} (h : exec (.hPoweron p) s = .next t) :
    p.cfg.wf = true ∧ t = poweredState p s := by
  by_cases hw : p.cfg.wf = true
  · cases (exec_hPoweron_of_wf hw s).symm.trans h
    exact ⟨hw, rfl⟩
  · cases (if_neg hw : exec (.hPoweron p) s = .refused .badConfiguration).symm.trans h

/-- Every step has a phase code (R86). -/
theorem exists_phaseCode {i : Instr} (h : turnWindow i = .sequencer) : ∃ code, decodeSeq code = .ok i := by
  cases i <;> cases h
  exacts [⟨0, rfl⟩, ⟨1, rfl⟩, ⟨2, rfl⟩, ⟨3, rfl⟩, ⟨4, rfl⟩, ⟨5, rfl⟩, ⟨6, rfl⟩, ⟨7, rfl⟩, ⟨8, rfl⟩, ⟨9, rfl⟩,
    ⟨10, rfl⟩, ⟨11, rfl⟩, ⟨12, rfl⟩]

/-- Settles O60: the cells that an operation names are the only ones that differ. -/
theorem onlyNamedOperationsWrite : Obligations.OnlyNamedOperationsWrite := by
  unfold Obligations.OnlyNamedOperationsWrite
  intro i s t h hp
  have hstep (hw : turnWindow i = .sequencer) : (∀ code, ¬ decodeSeq code = .ok i) ↔ False :=
    let ⟨code, hc⟩ := exists_phaseCode hw
    iff_false_intro fun hn => hn code hc
  cases i
  case hPoweron p => exact absurd rfl (hp p)
  case sndstRd a => cases (exec_sndstRd a s).symm.trans h; simp
  case nvramWr k v =>
    obtain ⟨m, e⟩ := exec_nvramWr_frame s k v
    cases e.symm.trans h; simp
  case scanline d =>
    obtain ⟨m, e⟩ := exec_scanline_frame s d
    cases e.symm.trans h; simp
  case hRestore img =>
    obtain ⟨-, rfl⟩ := exec_hRestore_next h
    simp [restoredState]
  case ftStart =>
    obtain ⟨p, e⟩ := exec_ftStart_frame s
    cases e.symm.trans h; simp [hstep rfl]
  case ftRstchk =>
    obtain ⟨cursor, ack, pending, draw, latch, events, e⟩ := exec_ftRstchk_frame s
    cases e.symm.trans h; simp [hstep rfl]
  case ftRun0 =>
    obtain ⟨n, g, p, events, e⟩ := exec_ftRun0_frame s
    cases e.symm.trans h; simp [hstep rfl]
  case ftRun1 =>
    obtain ⟨n, g, p, events, e⟩ := exec_ftRun1_frame s
    cases e.symm.trans h; simp [hstep rfl]
  case ftScan =>
    obtain ⟨m, e⟩ := exec_ftScan_frame s
    cases e.symm.trans h; simp [hstep rfl]
  case ftAudio => cases (exec_ftAudio s).symm.trans h; simp [hstep rfl]
  case ftFlush => cases (exec_ftFlush s).symm.trans h; simp [hstep rfl]
  case ftPalrc =>
    obtain ⟨m, dirty, e⟩ := exec_ftPalrc_frame s
    cases e.symm.trans h; simp [hstep rfl]
  case ftBlit =>
    obtain ⟨m, e⟩ := exec_ftBlit_frame s
    cases e.symm.trans h; simp [hstep rfl]
  case ftInsnap | ftClracc | ftNext | ftDone => cases h; simp [hstep rfl]
  case dfltRd | dfltWr | vramRd | vramWr | nvramRd | nvweWr | dipRd | palRd | palWr
    | protRd | protWr | ctrlWr | gromRd | sndlatchWr | wdogWr => cases h; simp
  case inputRd0 | inputRd1 | inputRd2 => cases h; simp [answerPort]
  case protRst => cases h; simp [resetCursor]
  case hResetreq | hBind | hDirty | hInput | hSave | eDma | eFmirq => cases h; simp

/-! ### The palette agreement (R34, R232) -/

/-- Settles O38: PAL.WR and the recalculation write the colour of the raw entry, and no other operation writes either
memory. -/
theorem paletteAgreementKept : Obligations.PaletteAgreementKept := by
  unfold Obligations.PaletteAgreementKept
  refine ⟨fun i n s t h hr hp hn hagree => ?_, fun n v s => ⟨_, rfl, paletteAgrees_palWr n v s⟩⟩
  obtain ⟨hcfg, -, -, hmem, -⟩ := onlyNamedOperationsWrite i s t h hp
  obtain ⟨-, -, -, -, hram, hcache, -⟩ := hmem hr
  by_cases hwr : ∃ k v, i = .palWr k v
  · obtain ⟨k, v, rfl⟩ := hwr
    cases h
    by_cases hk : n = k
    · exact hk ▸ paletteAgrees_palWr n v s
    · simpa [State.paletteAgrees, State.readPalcache, State.readPalram, hk] using hagree
  push Not at hwr
  by_cases hrc : i = .ftPalrc
  · subst hrc
    by_cases hd : s.surfaceBound = true ∧ s.paldirty = true
    · cases (exec_ftPalrc_of_dirty hd.1 hd.2).symm.trans h
      exact readPalcache_recalcPalette s hn
    · cases (exec_ftPalrc_of_not (by simpa [imp_iff_not_or] using hd)).symm.trans h
      exact hagree
  · simpa only [State.paletteAgrees, State.readPalcache, State.readPalram, hcfg, hram hwr, hcache hwr hrc] using hagree

/-! ### The cursor (R137) -/

section
variable (s : State) (m : Nat)

/-- One turn of the loop of R146: pixel `x` of the line, fetched from column `col`. -/
def plotPixel (d : Desc) (x col : Nat) (s : State) : State :=
  if x - d.leftBlank.toNat < s.cfg.screenW then
    { s with
      pixbuf := writeCell s.pixbuf (surfaceIndex s.cfg.screenW d.rowAddress.toNat (x - d.leftBlank.toNat))
        (significantBits (s.readVram (columnWord (rowBase s.cfg d) col))) }
  else s

theorem scanLine_succ (d : Desc) (n x col : Nat) :
    scanLine d (n + 1) x col s = scanLine d n (x + 1) (col + 1) (plotPixel d x col s) := rfl

theorem plotPixel_setCursor (d : Desc) (x col : Nat) :
    plotPixel d x col { s with cursor := m } = { plotPixel d x col s with cursor := m } := by
  by_cases hx : x - d.leftBlank.toNat < s.cfg.screenW
  · simp only [plotPixel, if_pos hx]
    rfl
  · simp only [plotPixel, if_neg hx]

theorem scanLine_setCursor (d : Desc) (n x col : Nat) :
    scanLine d n x col { s with cursor := m } = { scanLine d n x col s with cursor := m } := by
  induction n generalizing x col s with
  | zero => rfl
  | succ n ih => rw [scanLine_succ, plotPixel_setCursor, ih, scanLine_succ]

theorem drawLine_setCursor (d : Desc) : drawLine d { s with cursor := m } = { drawLine d s with cursor := m } := by
  by_cases hb : s.surfaceBound = false
  · simp only [drawLine, if_pos hb]
  · by_cases hr : s.cfg.screenH ≤ d.rowAddress.toNat
    · simp only [drawLine, if_neg hb, if_pos hr]
    · simp only [drawLine, if_neg hb, if_neg hr, scanLine_setCursor]

theorem runGranted_setCursor (p : Proc) (after : Phase) (g : Grant) :
    runGranted p after g { s with cursor := m } = { runGranted p after g s with cursor := m } := by
  by_cases hr : s.returned = true
  · simp only [runGranted, if_pos hr]
    cases p <;> rfl
  · simp only [runGranted, if_neg hr]
    rfl

theorem runStep_setCursor (p : Proc) (after : Phase) :
    runStep p after { s with cursor := m } = { runStep p after s with cursor := m } := by
  have hcyc : State.cycDone { s with cursor := m } p = s.cycDone p := by cases p <;> rfl
  rcases s.grant.eq_none_or_eq_some with hg | ⟨g, hg⟩
  · rcases Nat.lt_or_ge (s.cycDone p) (s.cfg.target p s.slice) with hr | hr
    · have hn : 0 < s.cfg.target p s.slice - s.cycDone p := Nat.sub_pos_of_lt hr
      have ht := Nat.add_sub_cancel' hr.le
      rw [runStep_of_request hg hn ht]
      exact (runStep_of_request (s := { s with cursor := m }) hg hn (hcyc ▸ ht)).trans
        (runGranted_setCursor (s.emit _) m p after _)
    · rw [runStep_of_target hg hr]
      exact runStep_of_target (s := { s with cursor := m }) hg (hcyc ▸ hr)
  · rw [runStep_of_grant hg]
    exact (runStep_of_grant (s := { s with cursor := m }) hg).trans (runGranted_setCursor s m p after g)

end

/-- Settles O29: the writers are those of the inventory, and the conditions and values of every operation but PROT.RD
are read from other cells. -/
theorem cursorIsolated : Obligations.CursorIsolated := by
  unfold Obligations.CursorIsolated
  constructor
  · intro i s t h hrd hwr hrst hchk hp
    obtain ⟨-, -, -, -, hcursor, -⟩ := onlyNamedOperationsWrite i s t h hp
    exact hcursor hrd hwr hrst hchk
  · intro i n s t h hrd
    cases i
    case protRd => exact absurd rfl hrd
    case sndstRd a =>
      cases (exec_sndstRd a s).symm.trans h
      exact ⟨n, exec_sndstRd a _⟩
    case nvramWr k v =>
      rcases Bool.eq_false_or_eq_true s.nvwe with hw | hw
      · cases (exec_nvramWr_of_armed hw k v).symm.trans h
        exact ⟨n, exec_nvramWr_of_armed (s := { s with cursor := n }) hw k v⟩
      · cases (exec_nvramWr_of_clear hw k v).symm.trans h
        exact ⟨n, exec_nvramWr_of_clear (s := { s with cursor := n }) hw k v⟩
    case ftStart =>
      rcases Bool.eq_false_or_eq_true s.frameGo with hg | hg
      · cases (exec_ftStart_of_go hg).symm.trans h
        exact ⟨n, exec_ftStart_of_go (s := { s with cursor := n }) hg⟩
      · cases (exec_ftStart_of_wait hg).symm.trans h
        exact ⟨n, exec_ftStart_of_wait (s := { s with cursor := n }) hg⟩
    case ftRstchk =>
      rcases Bool.eq_false_or_eq_true s.resetPending with hr | hr
      · cases (exec_ftRstchk_of_pending hr).symm.trans h
        exact ⟨0, exec_ftRstchk_of_pending (s := { s with cursor := n }) hr⟩
      · cases (exec_ftRstchk_of_none hr).symm.trans h
        exact ⟨n, exec_ftRstchk_of_none (s := { s with cursor := n }) hr⟩
    case ftRun0 =>
      cases h
      exact ⟨n, congrArg Host.Outcome.next (runStep_setCursor s n .p0 .run1)⟩
    case ftRun1 =>
      cases h
      exact ⟨n, congrArg Host.Outcome.next (runStep_setCursor s n .p1 .scan)⟩
    case ftScan =>
      cases h
      exact ⟨n, congrArg (fun t => Host.Outcome.next (State.goto t .audio)) (drawLine_setCursor s n _)⟩
    case scanline d =>
      cases h
      exact ⟨n, congrArg Host.Outcome.next (drawLine_setCursor s n d)⟩
    case ftAudio =>
      cases (exec_ftAudio s).symm.trans h
      exact ⟨n, exec_ftAudio _⟩
    case ftFlush =>
      cases (exec_ftFlush s).symm.trans h
      exact ⟨n, exec_ftFlush _⟩
    case ftPalrc =>
      by_cases hd : s.surfaceBound = true ∧ s.paldirty = true
      · cases (exec_ftPalrc_of_dirty hd.1 hd.2).symm.trans h
        exact ⟨n, exec_ftPalrc_of_dirty (s := { s with cursor := n }) hd.1 hd.2⟩
      · have hd' : s.surfaceBound = false ∨ s.paldirty = false := by simpa [imp_iff_not_or] using hd
        cases (exec_ftPalrc_of_not hd').symm.trans h
        exact ⟨n, exec_ftPalrc_of_not (s := { s with cursor := n }) hd'⟩
    case ftBlit =>
      rcases Bool.eq_false_or_eq_true s.surfaceBound with hb | hb
      · cases (exec_ftBlit_of_bound hb).symm.trans h
        exact ⟨n, exec_ftBlit_of_bound (s := { s with cursor := n }) hb⟩
      · cases (exec_ftBlit_of_unbound hb).symm.trans h
        exact ⟨n, exec_ftBlit_of_unbound (s := { s with cursor := n }) hb⟩
    case hRestore img =>
      obtain ⟨hf, rfl⟩ := exec_hRestore_next h
      exact ⟨n, exec_hRestore_of_fits (s := { s with cursor := n }) hf⟩
    case hPoweron p =>
      obtain ⟨hw, rfl⟩ := exec_hPoweron_next h
      exact ⟨0, exec_hPoweron_of_wf hw _⟩
    all_goals
      cases h
      exact ⟨_, rfl⟩

end Sys2Proof.Machine
end

section
/-! SUPPORT. Cycle targets and run grants (R175 to R177, R181, R186 to R188). -/

namespace Sys2Proof

/-! ### The targets (R181) -/

/-- The last target is the floor of the budget. -/
theorem Cfg.target_last {c : Cfg} (hc : c.wf = true) (p : Proc) : c.target p (c.sliceCount - 1) = c.budgetFloor p := by
  have hpos := Cfg.wf_sliceCount hc
  rw [Cfg.target, Cfg.budgetFloor, Nat.sub_add_cancel hpos, Nat.mul_div_mul_right _ _ hpos]

/-- A quotient of one more summand is the sum of the quotients, or one more. -/
theorem Cfg.target_succ {c : Cfg} (hc : c.wf = true) {p : Proc} (hden : (c.budget p).den = 1) (i : Nat) :
    c.target p (i + 1) = c.target p i + (c.budget p).num / c.sliceCount ∨
      c.target p (i + 1) = c.target p i + (c.budget p).num / c.sliceCount + 1 := by
  simp only [Cfg.target, hden, Nat.one_mul]
  rw [Nat.mul_succ, Nat.add_div (Cfg.wf_sliceCount hc)]
  split
  · exact .inr rfl
  · exact .inl rfl

/-- Settles O58: the targets are the floors of equal parts of the budget. -/
theorem targetIsProportional : Obligations.TargetIsProportional := by
  unfold Obligations.TargetIsProportional
  exact fun c p hc => ⟨fun i => Cfg.target_mono c p (Nat.le_succ i), Cfg.target_last hc p, Cfg.target_succ hc⟩

end Sys2Proof

namespace Sys2Proof.Machine

/-- Settles O57: at the flush every slice's run step is finished, the last one up to the last target. -/
theorem cyclesReachTheBudget : Obligations.CyclesReachTheBudget := by
  unfold Obligations.CyclesReachTheBudget
  intro s p hs hflush
  have hslice : s.slice = s.cfg.sliceCount := hs.slice.after (by rw [hflush]; rfl)
  have hcyc : s.CyclesOk p := by
    cases p
    · exact hs.cycles0
    · exact hs.cycles1
  have hruns : s.runsDone p = some (s.cfg.sliceCount - 1 + 1) := by
    simp only [State.runsDone, hflush, hslice, Nat.sub_add_cancel (Cfg.wf_sliceCount hs.cfg)]
  obtain ⟨hlo, hhi⟩ := hcyc _ hruns
  rw [Cfg.target_last hs.cfg] at hlo hhi
  omega

/-! ### The turns of a run step (R175 to R177, R187) -/

/-- The run step of each processor. -/
theorem exec_run {p : Proc} {i : Instr} {after : Phase}
    (h : (p = .p0 ∧ i = .ftRun0 ∧ after = .run1) ∨ (p = .p1 ∧ i = .ftRun1 ∧ after = .scan)) (s : State) :
    exec i s = .next (runStep p after s) := by
  obtain ⟨rfl, rfl, rfl⟩ | ⟨rfl, rfl, rfl⟩ := h <;> rfl

/-- A turn goes on with the grant that it finds open, or that it makes for the cycles wanting and announces. -/
theorem runStep_eq_runGranted {p : Proc} {after : Phase} {s : State} {g : Grant} {events : List Event}
    (h : (s.grant = none ∧ 0 < g.cycles ∧ s.cycDone p + g.cycles = s.cfg.target p s.slice ∧
        g.proc = p ∧ g.ran = 0 ∧ events = s.events ++ [.run p g.cycles]) ∨ (s.grant = some g ∧ events = s.events)) :
    runStep p after s = runGranted p after g { s with events := events } := by
  rcases h with ⟨hg, hpos, hsum, hproc, hran, rfl⟩ | ⟨hg, rfl⟩
  · obtain ⟨proc, cycles, ran⟩ := g
    cases hproc
    cases hran
    exact runStep_of_request hg hpos hsum
  · exact runStep_of_grant hg

/-- Settles O45: a turn counts what the processor reports, brought within the bounds of R175. -/
theorem runStepsGrantAndReturn : Obligations.RunStepsGrantAndReturn := by
  unfold Obligations.RunStepsGrantAndReturn
  refine ⟨fun p i after s hstep => ⟨fun hg ht => ?_, fun g events hg => ⟨fun hr => ?_, fun hr => ?_⟩⟩,
    stall_eq_false_iff, ?_, ?_⟩
  · rw [exec_run hstep, runStep_of_target hg ht]
    rfl
  · refine ⟨max g.cycles (ranSoFar p g s), by omega, by unfold ranSoFar; omega, by unfold ranSoFar; omega, ?_⟩
    rw [exec_run hstep, runStep_eq_runGranted hg, runGranted_of_returned (s := { s with events := events }) hr]
    cases p <;> rfl
  · refine ⟨ranSoFar p g s, by unfold ranSoFar; omega, by unfold ranSoFar; omega, ?_⟩
    rw [exec_run hstep, runStep_eq_runGranted hg, runGranted_of_running (s := { s with events := events }) hr]
    rfl
  · rintro s ⟨h0, h1⟩
    obtain ⟨g, hg, hp, -⟩ := (stall_eq_false_iff .p0 s).1 h0
    obtain ⟨g', hg', hp', -⟩ := (stall_eq_false_iff .p1 s).1 h1
    cases hg.symm.trans hg'
    cases hp.symm.trans hp'
  · intro p s hs hstall
    obtain ⟨g, hg, rfl, hran⟩ := (stall_eq_false_iff p s).1 hstall
    obtain ⟨hphase, -, hsum, -⟩ := hs.grant g hg
    exact ⟨hphase, g, hg, by omega⟩

end Sys2Proof.Machine
end

section
/-! SUPPORT. The host's moves (60_exceptions.md, 70_reset_and_hazards.md) and the turns (R60): what a save, a restore and
a power-on do, which turn is performed and which is refused. -/

namespace Sys2Proof.Machine

/-! ### Inputs (R202, R204, R208) -/

/-- Settles O51: each move is one write or one event. -/
theorem outsideMovesSetInputs : Obligations.OutsideMovesSetInputs := by
  unfold Obligations.OutsideMovesSetInputs
  exact fun _ => ⟨rfl, fun _ => rfl, rfl, fun _ _ _ _ _ => rfl, fun _ => rfl⟩

/-! ### Saved images (R209, R210; 93 U17) -/

/-- A restore refuses an image that does not fit. -/
theorem exec_hRestore_of_not_fits {img : SavedImage} {s : State} (h : ¬ imageFits s.cfg img = true) :
    exec (.hRestore img) s = .refused .imageMismatch :=
  if_neg h

section
variable {s : State} (hs : s.Inv) {c : Cfg} (hc : Cfg.sameParameters s.cfg c)
include hs hc

/-- The image of a state within the invariant fits every state of the same configuration. -/
theorem imageFits_imageOf : imageFits c (imageOf s) = true := by
  obtain ⟨hnv, hpal, hvr⟩ := sizes_of_same hc
  rw [imageFits_iff, ← hnv, ← hpal, ← hvr]
  exact ⟨hc, ((Memory.wf_iff ..).1 hs.memories.nvram).2, ((Memory.wf_iff ..).1 hs.memories.palram).2,
    ((Memory.wf_iff ..).1 hs.memories.palcache).2, ((Memory.wf_iff ..).1 hs.memories.vram).2⟩

/-- The image of a state within the invariant is one that a save can produce. -/
theorem isImage_imageOf : (imageOf s).isImage c = true := by
  have hbanks : (s.gbankOff0 = 0 ∨ (c.gromLarge = true ∧ s.gbankOff0 = c.gromHighOffset)) ∧ s.gbankOff1 = 0 := by
    have hb := hs.banks
    rwa [State.BanksOk, hc.1] at hb
  simp only [SavedImage.isImage, Bool.and_eq_true, Bool.or_eq_true, beq_iff_eq]
  exact ⟨⟨⟨⟨⟨((Memory.wf_iff ..).1 hs.memories.nvram).1, ((Memory.wf_iff ..).1 hs.memories.palram).1⟩,
    ((Memory.wf_iff ..).1 hs.memories.palcache).1⟩, ((Memory.wf_iff ..).1 hs.memories.vram).1⟩, hbanks.1⟩, hbanks.2⟩

end

/-- Settles O52: the image of a state fits where its configuration is the same, and a restore tests nothing else. -/
theorem saveThenRestore : Obligations.SaveThenRestore := by
  unfold Obligations.SaveThenRestore
  refine ⟨fun s => ⟨imageOf s, rfl, fun hs u hc =>
    ⟨isImage_imageOf hs hc, exec_hRestore_of_fits (imageFits_imageOf hs hc)⟩, rfl⟩,
    fun img u hc hnv hpal hcache hvr => ?_, fun img u h => exec_hRestore_of_not_fits fun hfits => ?_⟩
  · refine exec_hRestore_of_fits ((imageFits_iff ..).2 ⟨hc, ?_⟩)
    simp only [Memory.fits_iff]
    exact ⟨hnv, hpal, hcache, hvr⟩
  · obtain ⟨hc, hcells⟩ := (imageFits_iff ..).1 hfits
    simp only [Memory.fits_iff] at hcells
    obtain ⟨hnv, hpal, hcache, hvr⟩ := hcells
    rcases h with h | ⟨cell, hm, hle⟩ | ⟨cell, hm, hle⟩ | ⟨cell, hm, hle⟩ | ⟨cell, hm, hle⟩
    · exact h hc
    · exact absurd (hnv cell hm) hle.not_gt
    · exact absurd (hpal cell hm) hle.not_gt
    · exact absurd (hcache cell hm) hle.not_gt
    · exact absurd (hvr cell hm) hle.not_gt

/-! ### Power-on (R221) -/

/-- Settles O53: each cell stands in the power-on state, and the configuration is the only test. -/
theorem powerOnValues : Obligations.PowerOnValues := by
  unfold Obligations.PowerOnValues
  refine fun p s => ⟨fun hw => ⟨poweredState p s, s.draw + 1, exec_hPoweron_of_wf hw s, rfl, rfl, ?_, rfl, rfl, rfl,
    rfl, rfl, rfl, rfl, rfl, rfl, rfl, rfl, rfl, rfl, rfl, rfl, rfl, rfl, rfl, rfl, rfl, rfl, rfl, rfl, rfl, ?_, ?_⟩,
    fun hw => if_neg (by simp [hw])⟩
  · exact fun image h => congrArg (Option.getD · _) h
  · exact fun h => congrArg (Option.getD · _) h
  · exact List.append_assoc ..

/-! ### The turn that is next (R60) -/

section
variable {s : State} {rest : List Turn}

theorem fetch_of_nil (h : s.schedule = []) : fetch s = (.seq (phaseCode s.phase), s) := by
  simp only [fetch, h]

theorem fetch_of_seq {inp : SeqInputs} (h : s.schedule = .seq inp :: rest) : fetch s = (.seq (phaseCode s.phase),
    { s with
      schedule := rest, frameGo := inp.frameGo, desc := inp.desc, ran := inp.ran, returned := inp.returned }) := by
  simp only [fetch, h]

theorem fetch_of_bus {b : BitVec 49} (h : s.schedule = .bus b :: rest) :
    fetch s = (.bus b, { s with schedule := rest }) := by
  simp only [fetch, h]

theorem fetch_of_env {code : BitVec 4} {arg : EnvArg} (h : s.schedule = .env code arg :: rest) :
    fetch s = (.env code arg, { s with schedule := rest }) := by
  simp only [fetch, h]

/-- In the sequencer's window, unless the turn raises `FRAME_GO` in another phase than `IDLE` (R208). -/
theorem windowOpen_sequencer {inp : SeqInputs} (h : s.schedule = .seq inp :: rest) :
    windowOpen s .sequencer = true ↔ s.phase = .idle ∨ s.frameGo = true ∨ inp.frameGo = false := by
  simp only [windowOpen, raisesFrameGo, h, Bool.or_eq_true, beq_iff_eq]
  cases inp.frameGo <;> cases s.frameGo <;> simp

theorem windowOpen_sequencer_of_nil (h : s.schedule = []) : windowOpen s .sequencer = true := by
  simp [windowOpen, raisesFrameGo, h]

theorem windowOpen_grant0 : windowOpen s .grant0 = true ↔ s.phase = .run0 ∧ ∃ g, s.grant = some g ∧ g.proc = .p0 := by
  simp only [windowOpen, Bool.and_eq_true, beq_iff_eq, grantOpen_iff]

theorem windowOpen_idle : windowOpen s .idle = true ↔ s.phase = .idle := beq_iff_eq

theorem windowOpen_run0 : windowOpen s .run0 = true ↔ s.phase = .run0 := beq_iff_eq

theorem windowOpen_scan : windowOpen s .scan = true ↔ s.phase = .scan := beq_iff_eq

theorem windowOpen_pendingReset :
    windowOpen s .pendingReset = true ↔ s.phase = .rstchk ∧ s.resetPending = true := by
  simp only [windowOpen, Bool.and_eq_true, beq_iff_eq]

end

end Sys2Proof.Machine
end

section
/-! SUPPORT. Where a turn is performed and where it is refused (R60, R133, R145, R175, R208). -/

namespace Sys2Proof.Machine

/-- A move that the host makes between frames (R208). -/
def IsHostMove (i : Instr) : Prop :=
  i = .hResetreq ∨ (∃ b : Bool, i = .hBind b) ∨ i = .hDirty ∨
    (∃ (i0 i1 i2 : Word) (d0 d1 : Byte), i = .hInput i0 i1 i2 d0 d1) ∨ i = .hSave ∨
    ∃ img : SavedImage, i = .hRestore img

theorem window_of_hostMove {i : Instr} (h : IsHostMove i) : turnWindow i = .idle := by
  rcases h with rfl | ⟨_, rfl⟩ | rfl | ⟨_, _, _, _, _, rfl⟩ | rfl | ⟨_, rfl⟩ <;> rfl

section
variable {s : State} {i : Instr}

/-- A well-formed operation is performed in its window, and nothing is added but after a line. -/
theorem step_of_window {w : Window} (hd : decode s.cfg (fetch s).1 = .ok i) (hwf : i.wellFormed s.cfg = true)
    (hw : turnWindow i = w) (hne : w ≠ .scan) (ho : windowOpen s w = true) : step s = exec i (fetch s).2 := by
  subst hw
  rw [step_of_open hd hwf ho, finish_of_ne_scan hne]

/-- The sequencer's turn performs the step of the phase. -/
theorem step_of_phase (hf : (fetch s).1 = .seq (phaseCode s.phase)) (hd : decodeSeq (phaseCode s.phase) = .ok i)
    (ho : windowOpen s .sequencer = true) : step s = exec i (fetch s).2 := by
  obtain ⟨hw, hwf⟩ := window_of_decodeSeq hd
  exact step_of_window (hf ▸ hd) (hwf _) hw nofun ho

/-- A well-formed operation outside its window is refused. -/
theorem step_of_not_window {w : Window} (hd : decode s.cfg (fetch s).1 = .ok i) (hwf : i.wellFormed s.cfg = true)
    (hw : turnWindow i = w) (ho : ¬ windowOpen s w = true) : step s = .refused .outOfOrder := by
  subst hw
  exact step_of_closed hd hwf (Bool.eq_false_iff.2 ho)

/-- No step has an error return (R189). -/
theorem exec_step_completes (h : turnWindow i = .sequencer) (s : State) : ∃ t, exec i s = .next t := by
  cases i <;> cases h <;> exact ⟨_, rfl⟩

end

/-- Settles O1: the point of the order is the operation's window. -/
theorem stepRunsTheTurn : Obligations.StepRunsTheTurn := by
  unfold Obligations.StepRunsTheTurn
  refine fun s => ⟨fun i hs hd => ?_, fun inp rest i hs hgo hd => ?_, fun b rest i g hs hd hwf hphase hg hproc => ?_,
    fun code arg rest i hs hd hwf => ?_⟩
  · have hf := fetch_of_nil hs
    rw [step_of_phase (hf ▸ rfl) hd (windowOpen_sequencer_of_nil hs), hf]
  · have hf := fetch_of_seq hs
    rw [step_of_phase (hf ▸ rfl) hd ((windowOpen_sequencer hs).2 hgo), hf]
  · have hf := fetch_of_bus hs
    rw [step_of_window (hf ▸ hd) hwf (window_of_decodeBus hd) nofun (windowOpen_grant0.2 ⟨hphase, g, hg, hproc⟩), hf]
  · have hf := fetch_of_env hs
    have hperform {w : Window} (hw : turnWindow i = w) (hne : w ≠ .scan) (ho : windowOpen s w = true) :
        step s = exec i { s with schedule := rest } := by
      rw [step_of_window (hf ▸ hd) hwf hw hne ho, hf]
    refine ⟨fun hm hphase => hperform (window_of_hostMove hm) nofun (windowOpen_idle.2 hphase), ?_, ?_, ?_, ?_⟩
    · rintro (⟨p, rfl⟩ | ⟨level, rfl⟩)
      · exact hperform rfl nofun rfl
      · exact hperform rfl nofun rfl
    · rintro ⟨m, rfl⟩ hphase
      exact hperform rfl nofun (windowOpen_run0.2 hphase)
    · rintro ⟨d, rfl⟩ hphase
      refine ⟨_, rfl, ?_⟩
      rw [step_of_open (hf ▸ hd) hwf (windowOpen_scan.2 hphase), hf]
      rfl
    · rintro rfl hphase hpending
      exact hperform rfl nofun (windowOpen_pendingReset.2 ⟨hphase, hpending⟩)

/-- Settles O2: every phase code decodes to a step, and every step completes. -/
theorem sequencerStepsNeverRefused : Obligations.SequencerStepsNeverRefused := by
  unfold Obligations.SequencerStepsNeverRefused
  intro s h
  obtain ⟨i, hd, hw⟩ := decodeSeq_phaseCode s.phase
  obtain ⟨t, ht⟩ := exec_step_completes hw (fetch s).2
  have hf : (fetch s).1 = .seq (phaseCode s.phase) ∧ windowOpen s .sequencer = true := by
    rcases h with hs | ⟨inp, rest, hs, hgo⟩
    · exact ⟨by rw [fetch_of_nil hs], windowOpen_sequencer_of_nil hs⟩
    · exact ⟨by rw [fetch_of_seq hs], (windowOpen_sequencer hs).2 hgo⟩
  exact ⟨i, t, hf.1, hd, ht, (step_of_phase hf.1 hd hf.2).trans ht⟩

/-- Settles O54: the window is closed. -/
theorem turnsOutOfPlaceRefused : Obligations.TurnsOutOfPlaceRefused := by
  unfold Obligations.TurnsOutOfPlaceRefused
  refine fun s => ⟨fun b rest hs hc hplace => ?_, fun code arg rest i hs hd hwf => ?_,
    fun inp rest hs hup hdown hphase => ?_⟩
  · obtain ⟨op, -, hd, hwf⟩ := decode_bus_total hc b
    refine step_of_not_window (fetch_of_bus hs ▸ hd) hwf (window_of_decodeBus hd) fun ho => ?_
    obtain ⟨hrun, g, hg, hproc⟩ := windowOpen_grant0.1 ho
    exact hplace.elim (· hrun) (· g hg hproc)
  · have hrefuse {w : Window} (hw : turnWindow i = w) (ho : ¬ windowOpen s w = true) : step s = .refused .outOfOrder :=
      step_of_not_window (fetch_of_env hs ▸ hd) hwf hw ho
    refine ⟨fun hm hphase => hrefuse (window_of_hostMove hm) fun ho => hphase (windowOpen_idle.1 ho), ?_, ?_, ?_⟩
    · rintro ⟨m, rfl⟩ hphase
      exact hrefuse rfl fun ho => hphase (windowOpen_run0.1 ho)
    · rintro ⟨d, rfl⟩ hphase
      exact hrefuse rfl fun ho => hphase (windowOpen_scan.1 ho)
    · rintro rfl hplace
      refine hrefuse rfl fun ho => ?_
      obtain ⟨hphase, hpending⟩ := windowOpen_pendingReset.1 ho
      exact hplace.elim (· hphase) fun hp => by simp [hp] at hpending
  · obtain ⟨i, hd, hw⟩ := decodeSeq_phaseCode s.phase
    have hf := fetch_of_seq hs
    refine step_of_not_window (i := i) (hf ▸ hd) ((window_of_decodeSeq hd).2 _) hw fun ho => ?_
    rcases (windowOpen_sequencer hs).1 ho with h | h | h
    · exact hphase h
    · exact Bool.false_ne_true (hdown.symm.trans h)
    · exact Bool.false_ne_true (h.symm.trans hup)

end Sys2Proof.Machine
end

section
/-! SUPPORT. The invariant of the block: its part on the progress of a frame, said phase by phase, which every step of the
sequencer keeps. -/

namespace Sys2Proof

/-- What equal shares make up is within the frame (R179). -/
theorem Cfg.shares_le {c : Cfg} {n : Nat} (h : n ≤ c.sliceCount) : n * c.sampleShare ≤ c.frameSamples :=
  calc n * c.sampleShare ≤ c.sliceCount * c.sampleShare := Nat.mul_le_mul_right _ h
    _ ≤ c.frameSamples := Nat.mul_div_le _ _

end Sys2Proof

namespace Sys2Proof.Machine

/-! ### The progress of a frame -/

/-- The part of the invariant that speaks of the line counter, the grant and the counts of the frame. -/
structure State.TimingOk (s : State) : Prop where
  slice : s.SliceOk
  grant : s.GrantOk
  cycles : ∀ p, s.CyclesOk p
  audio : s.AudioOk

/-- The cells that `TimingOk` speaks of. -/
def State.timing (s : State) : Cfg × Phase × Nat × Nat × Nat × Nat × Option Grant :=
  (s.cfg, s.phase, s.slice, s.cycDone0, s.cycDone1, s.audDone, s.grant)

theorem State.TimingOk.congr {s t : State} (hs : s.TimingOk) (h : t.timing = s.timing) : t.TimingOk := by
  cases s
  cases t
  cases h
  exact ⟨⟨hs.slice.bound, hs.slice.inside, hs.slice.after⟩, hs.grant, hs.cycles,
    ⟨hs.audio.bound, hs.audio.shares, hs.audio.flushed⟩⟩

/-- The phases outside the slice loop and what follows it. -/
def Phase.beforeSlices : Phase → Bool
  | .idle | .rstchk | .insnap | .clracc => true
  | .run0 | .run1 | .scan | .audio | .next | .flush | .palrc | .blit | .done => false

section
variable {s : State}

/-- No grant is open outside the run steps. -/
theorem grant_eq_none_iff (h0 : s.phase ≠ .run0) (h1 : s.phase ≠ .run1) : s.GrantOk ↔ s.grant = none := by
  constructor
  · intro h
    rcases s.grant.eq_none_or_eq_some with hg | ⟨g, hg⟩
    · exact hg
    · have hp := (h g hg).1
      cases hproc : g.proc <;> rw [hproc] at hp
      · exact absurd hp h0
      · exact absurd hp h1
  · intro h g hg
    cases h.symm.trans hg

/-- Before the slices: no processor has run, and nothing is counted against the bounds. -/
theorem timingOk_before_iff (h : s.phase.beforeSlices = true) :
    s.TimingOk ↔ s.slice ≤ s.cfg.sliceCount ∧ s.grant = none ∧ s.audDone ≤ s.cfg.frameSamples := by
  have hg : s.GrantOk ↔ s.grant = none := by
    apply grant_eq_none_iff <;> intro e <;> rw [e] at h <;> cases h
  have hin : s.phase.inSlice = false ∧ s.phase.afterSlices = false := by
    revert h
    cases s.phase <;> decide
  have hruns : ∀ p, s.runsDone p = none := by
    intro p
    revert h
    unfold State.runsDone
    cases s.phase <;> simp [Phase.beforeSlices]
  have haud : s.audioSlicesDone = none ∧ ¬ (s.phase = .palrc ∨ s.phase = .blit ∨ s.phase = .done) := by
    revert h
    unfold State.audioSlicesDone
    cases s.phase <;> simp [Phase.beforeSlices]
  constructor
  · exact fun hs => ⟨hs.slice.bound, hg.1 hs.grant, hs.audio.bound⟩
  · rintro ⟨hslice, hnone, hbound⟩
    exact ⟨⟨hslice, by simp [hin], by simp [hin]⟩, hg.2 hnone, fun p n e => by simp [hruns] at e,
      ⟨hbound, by simp [haud], fun e => absurd e haud.2⟩⟩

/-- A move between phases before the slices keeps the bounds of the frame. -/
theorem State.TimingOk.before {t : State} (hs : s.TimingOk) (h : s.phase.beforeSlices = true)
    (ht : t.phase.beforeSlices = true)
    (e : (t.cfg, t.slice, t.audDone, t.grant) = (s.cfg, s.slice, s.audDone, s.grant)) : t.TimingOk := by
  obtain ⟨hcfg, hslice, haud, hgrant⟩ := by simpa only [Prod.mk.injEq] using e
  rw [timingOk_before_iff ht, hcfg, hslice, haud, hgrant]
  exact (timingOk_before_iff h).1 hs

/-- In the slice loop: the counts of the steps that this slice has finished, and perhaps a grant. -/
theorem timingOk_inSlice_iff (h : s.phase.inSlice = true) {runs : Proc → Nat} {shares : Nat}
    (hruns : ∀ p, s.runsDone p = some (runs p)) (hshares : s.audioSlicesDone = some shares) :
    s.TimingOk ↔ s.slice < s.cfg.sliceCount ∧ s.GrantOk ∧
      (∀ p, Cfg.cyclesWithin s.cfg p (runs p) (s.cycDone p)) ∧ s.audDone = shares * s.cfg.sampleShare := by
  have haft : s.phase.afterSlices = false ∧ ¬ (s.phase = .palrc ∨ s.phase = .blit ∨ s.phase = .done) := by
    revert h
    cases s.phase <;> decide
  have hle : shares ≤ s.slice + 1 := by
    revert h hshares
    unfold State.audioSlicesDone
    cases s.phase <;> simp [Phase.inSlice] <;> omega
  constructor
  · exact fun hs => ⟨hs.slice.inside h, hs.grant, fun p => hs.cycles p _ (hruns p), hs.audio.shares _ hshares⟩
  · rintro ⟨hslice, hgrant, hcyc, haud⟩
    refine ⟨⟨hslice.le, fun _ => hslice, by simp [haft]⟩, hgrant, fun p n e => ?_, ⟨?_, fun n e => ?_, ?_⟩⟩
    · cases (hruns p).symm.trans e
      exact hcyc p
    · rw [haud]
      exact Cfg.shares_le (hle.trans hslice)
    · cases hshares.symm.trans e
      exact haud
    · exact fun e => absurd e haft.2

/-- After the slices: every slice is done, and its cycles are counted. -/
theorem timingOk_after_iff (h : s.phase.afterSlices = true) :
    s.TimingOk ↔ s.slice = s.cfg.sliceCount ∧ s.grant = none ∧
      (∀ p, Cfg.cyclesWithin s.cfg p s.slice (s.cycDone p)) ∧ s.AudioOk := by
  have hg : s.GrantOk ↔ s.grant = none := by
    apply grant_eq_none_iff <;> intro e <;> rw [e] at h <;> cases h
  have hin : s.phase.inSlice = false := by
    revert h
    cases s.phase <;> decide
  have hruns : ∀ p, s.runsDone p = some s.slice := by
    intro p
    revert h
    unfold State.runsDone
    cases s.phase <;> simp [Phase.afterSlices]
  constructor
  · exact fun hs => ⟨hs.slice.after h, hg.1 hs.grant, fun p => hs.cycles p _ (hruns p), hs.audio⟩
  · rintro ⟨hslice, hnone, hcyc, haud⟩
    refine ⟨⟨hslice.le, by simp [hin], fun _ => hslice⟩, hg.2 hnone, fun p n e => ?_, haud⟩
    cases (hruns p).symm.trans e
    exact hcyc p

/-- At the flush the shares of all slices are counted (R179). -/
theorem audioOk_of_flush (h : s.phase = .flush) (hslice : s.slice = s.cfg.sliceCount)
    (ha : s.audDone = s.slice * s.cfg.sampleShare) : s.AudioOk where
  bound := ha ▸ Cfg.shares_le hslice.le
  shares n hn := by
    rw [State.audioSlicesDone, h] at hn
    cases hn
    exact ha
  flushed hp := by simp [h] at hp

/-- After the flush the whole buffer is counted (R182). -/
theorem audioOk_of_flushed (h : s.phase = .palrc ∨ s.phase = .blit ∨ s.phase = .done)
    (ha : s.audDone = s.cfg.frameSamples) : s.AudioOk where
  bound := ha.le
  shares n hn := by
    unfold State.audioSlicesDone at hn
    rcases h with h | h | h <;> rw [h] at hn <;> cases hn
  flushed _ := ha

/-- With everything cleared and no grant open, the slices begin within their bounds, whatever stood before (R174). -/
theorem timingOk_cleared (hc : s.cfg.wf = true) (hg : s.grant = none) :
    State.TimingOk { s.goto .run0 with cycDone0 := 0, cycDone1 := 0, audDone := 0, slice := 0 } := by
  refine (timingOk_inSlice_iff (runs := fun _ => 0) rfl (fun p => by cases p <;> rfl) rfl).2
    ⟨Cfg.wf_sliceCount hc, fun g h => ?_, fun p => by cases p <;> rfl, (Nat.zero_mul _).symm⟩
  cases hg.symm.trans h

/-- Cycles within the bounds after `n` run steps are within the next target's overshoot (R188). -/
theorem cyclesWithin_le_target {c : Cfg} {p : Proc} {n cycles : Nat} (h : Cfg.cyclesWithin c p n cycles) :
    cycles ≤ c.target p n + c.overshootMax p := by
  cases n with
  | zero =>
    rw [show cycles = 0 from h]
    exact Nat.zero_le _
  | succ i =>
    obtain ⟨-, hhi⟩ := h
    exact hhi.trans (Nat.add_le_add_right (Cfg.target_mono c p (Nat.le_succ i)) _)

/-- The processor of an open grant is the one of the run step (R175). -/
theorem proc_of_grant {p : Proc} {g : Grant} (hs : s.GrantOk) (hp : s.phase = runPhase p) (hg : s.grant = some g) :
    g.proc = p := by
  have h := (hs g hg).1.symm.trans hp
  revert h
  cases g.proc <;> cases p <;> decide

/-- A finished run step has brought its processor's cycles between the target and its overshoot (R188). -/
theorem timingOk_runDone {p : Proc} {after : Phase} {cycles : Nat}
    (hafter : (p = .p0 ∧ after = .run1) ∨ (p = .p1 ∧ after = .scan)) (hphase : s.phase = runPhase p)
    (hs : s.TimingOk) (hlo : s.cfg.target p s.slice ≤ cycles)
    (hhi : cycles ≤ s.cfg.target p s.slice + s.cfg.overshootMax p) :
    State.TimingOk { s.setCycDone p cycles with grant := none, phase := after } := by
  have hslice : s.slice < s.cfg.sliceCount := hs.slice.inside (by rw [hphase]; cases p <;> rfl)
  have haud : s.audDone = s.slice * s.cfg.sampleShare :=
    hs.audio.shares _ (by rw [State.audioSlicesDone, hphase]; cases p <;> rfl)
  rcases hafter with ⟨rfl, rfl⟩ | ⟨rfl, rfl⟩
  · have hother := hs.cycles .p1 s.slice (by rw [State.runsDone, hphase]; rfl)
    refine (timingOk_inSlice_iff (runs := fun q => match q with | .p0 => s.slice + 1 | .p1 => s.slice) rfl
      (fun q => by cases q <;> rfl) rfl).2 ⟨hslice, nofun, fun q => ?_, haud⟩
    cases q
    · exact ⟨hlo, hhi⟩
    · exact hother
  · have hother := hs.cycles .p0 (s.slice + 1) (by rw [State.runsDone, hphase]; rfl)
    refine (timingOk_inSlice_iff (runs := fun _ => s.slice + 1) rfl (fun _ => rfl) rfl).2
      ⟨hslice, nofun, fun q => ?_, haud⟩
    cases q
    · exact hother
    · exact ⟨hlo, hhi⟩

/-- A turn of a run step keeps the bounds of the frame: a return lies between the request and its overshoot. -/
theorem runStep_keeps_timing {p : Proc} {after : Phase}
    (hafter : (p = .p0 ∧ after = .run1) ∨ (p = .p1 ∧ after = .scan)) (hphase : s.phase = runPhase p)
    (hs : s.TimingOk) : (runStep p after s).TimingOk := by
  rcases runStep_cases p after s with ⟨hg, ht, e⟩ | ⟨g, events, hg, hturn⟩
  · have hruns : s.runsDone p = some s.slice := by
      unfold State.runsDone
      rw [hphase]
      cases p <;> rfl
    rw [e]
    refine (timingOk_runDone hafter hphase hs ht (cyclesWithin_le_target (hs.cycles p _ hruns))).congr ?_
    cases p <;> simp [State.timing, State.setCycDone, State.cycDone, State.goto, hg]
  · obtain ⟨hproc, hpos, hsum⟩ :
        g.proc = p ∧ 0 < g.cycles ∧ s.cycDone p + g.cycles = s.cfg.target p s.slice := by
      rcases hg with ⟨-, hpos, hsum, hproc⟩ | hg
      · exact ⟨hproc, hpos, hsum⟩
      · obtain ⟨-, hpos, hsum, -⟩ := hs.grant g hg
        have hproc := proc_of_grant hs.grant hphase hg
        exact ⟨hproc, hpos, hproc ▸ hsum⟩
    rcases hturn with ⟨-, ran, hlo, hhi, e⟩ | ⟨-, ran, hran, e⟩
    · rw [e]
      exact (timingOk_runDone (cycles := s.cycDone p + ran) hafter hphase hs (by omega) (by omega)).congr rfl
    · rw [e]
      subst hproc
      refine ⟨⟨hs.slice.bound, hs.slice.inside, hs.slice.after⟩, fun g' hg' => ?_, hs.cycles,
        ⟨hs.audio.bound, hs.audio.shares, hs.audio.flushed⟩⟩
      cases hg'
      exact ⟨hphase, hpos, hsum, hran⟩

/-- Between the run steps and the next slice: both processors have run, and no grant is open. -/
theorem timingOk_bothRan_iff {shares : Nat} (h : s.phase = .scan ∨ s.phase = .audio ∨ s.phase = .next)
    (hshares : s.audioSlicesDone = some shares) : s.TimingOk ↔ s.slice < s.cfg.sliceCount ∧ s.grant = none ∧
      (∀ p, Cfg.cyclesWithin s.cfg p (s.slice + 1) (s.cycDone p)) ∧ s.audDone = shares * s.cfg.sampleShare := by
  have hin : s.phase.inSlice = true := by rcases h with h | h | h <;> rw [h] <;> rfl
  have hruns : ∀ p, s.runsDone p = some (s.slice + 1) := by
    intro p
    rcases h with h | h | h <;> simp only [State.runsDone, h]
  rw [timingOk_inSlice_iff hin hruns hshares, grant_eq_none_iff] <;> rintro e <;> simp [e] at h

/-- The line done, the audio slice is next (R178). -/
theorem timingOk_lineDone (hphase : s.phase = .scan) (hs : s.TimingOk) : (s.goto .audio).TimingOk := by
  rw [timingOk_bothRan_iff (shares := s.slice) (.inl hphase) (by simp only [State.audioSlicesDone, hphase])] at hs
  exact (timingOk_bothRan_iff (.inr (.inl rfl)) rfl).2 hs

/-- The share of a slice is counted once more (R179). -/
theorem timingOk_audioDone (hphase : s.phase = .audio) (hs : s.TimingOk) :
    State.TimingOk { s with audDone := s.audDone + s.cfg.sampleShare, phase := .next } := by
  rw [timingOk_bothRan_iff (shares := s.slice) (.inr (.inl hphase))
    (by simp only [State.audioSlicesDone, hphase])] at hs
  obtain ⟨hslice, hnone, hcyc, haud⟩ := hs
  exact (timingOk_bothRan_iff (.inr (.inr rfl)) rfl).2 ⟨hslice, hnone, hcyc, by rw [haud, Nat.succ_mul]⟩

/-- After a slice the next one begins, or the flush with all of them done (R180). -/
theorem timingOk_sliceDone (hphase : s.phase = .next) (hs : s.TimingOk) : State.TimingOk { s with
    phase := if s.slice + 1 < s.cfg.sliceCount then .run0 else .flush, slice := s.slice + 1 } := by
  rw [timingOk_bothRan_iff (shares := s.slice + 1) (.inr (.inr hphase))
    (by simp only [State.audioSlicesDone, hphase])] at hs
  obtain ⟨hslice, hnone, hcyc, haud⟩ := hs
  by_cases hmore : s.slice + 1 < s.cfg.sliceCount
  · rw [if_pos hmore]
    refine (timingOk_inSlice_iff (runs := fun _ => s.slice + 1) rfl (fun _ => rfl) rfl).2
      ⟨hmore, fun g hg => ?_, hcyc, haud⟩
    cases hnone.symm.trans hg
  · rw [if_neg hmore]
    have hlast : s.slice + 1 = s.cfg.sliceCount := by omega
    exact (timingOk_after_iff rfl).2 ⟨hlast, hnone, hcyc, audioOk_of_flush rfl hlast haud⟩

/-- The step of the phase keeps the bounds of the frame. -/
theorem sequencer_keeps_timing {i : Instr} {t : State} (hc : s.cfg.wf = true) (hs : s.TimingOk)
    (hd : decodeSeq (phaseCode s.phase) = .ok i) (h : exec i s = .next t) : t.TimingOk := by
  cases hphase : s.phase <;> rw [hphase] at hd <;> cases hd
  case idle =>
    rcases Bool.eq_false_or_eq_true s.frameGo with hg | hg
    · cases (exec_ftStart_of_go hg).symm.trans h
      exact hs.before (by rw [hphase]; rfl) rfl rfl
    · cases (exec_ftStart_of_wait hg).symm.trans h
      exact hs
  case rstchk =>
    obtain ⟨cursor, ack, pending, draw, latch, events, e⟩ := exec_ftRstchk_frame s
    cases e.symm.trans h
    exact hs.before (by rw [hphase]; rfl) rfl rfl
  case insnap =>
    cases h
    exact hs.before (by rw [hphase]; rfl) rfl rfl
  case clracc =>
    cases h
    obtain ⟨-, hnone, -⟩ := (timingOk_before_iff (s := s) (by rw [hphase]; rfl)).1 hs
    exact timingOk_cleared hc hnone
  case run0 =>
    cases h
    exact runStep_keeps_timing (.inl ⟨rfl, rfl⟩) hphase hs
  case run1 =>
    cases h
    exact runStep_keeps_timing (.inr ⟨rfl, rfl⟩) hphase hs
  case scan =>
    obtain ⟨m, e⟩ := exec_ftScan_frame s
    cases e.symm.trans h
    exact (timingOk_lineDone hphase hs).congr rfl
  case audio =>
    cases (exec_ftAudio s).symm.trans h
    exact (timingOk_audioDone hphase hs).congr rfl
  case next =>
    cases h
    exact timingOk_sliceDone hphase hs
  case flush =>
    cases (exec_ftFlush s).symm.trans h
    obtain ⟨hslice, hnone, hcyc, -⟩ := (timingOk_after_iff (s := s) (by rw [hphase]; rfl)).1 hs
    exact (timingOk_after_iff rfl).2 ⟨hslice, hnone, hcyc, audioOk_of_flushed (.inl rfl) rfl⟩
  case palrc =>
    obtain ⟨m, dirty, e⟩ := exec_ftPalrc_frame s
    cases e.symm.trans h
    obtain ⟨hslice, hnone, hcyc, haud⟩ := (timingOk_after_iff (s := s) (by rw [hphase]; rfl)).1 hs
    exact (timingOk_after_iff rfl).2
      ⟨hslice, hnone, hcyc, audioOk_of_flushed (.inr (.inl rfl)) (haud.flushed (.inl hphase))⟩
  case blit =>
    obtain ⟨m, e⟩ := exec_ftBlit_frame s
    cases e.symm.trans h
    obtain ⟨hslice, hnone, hcyc, haud⟩ := (timingOk_after_iff (s := s) (by rw [hphase]; rfl)).1 hs
    exact (timingOk_after_iff rfl).2
      ⟨hslice, hnone, hcyc, audioOk_of_flushed (.inr (.inr rfl)) (haud.flushed (.inr (.inl hphase)))⟩
  case done =>
    cases h
    obtain ⟨hslice, hnone, -, haud⟩ := (timingOk_after_iff (s := s) (by rw [hphase]; rfl)).1 hs
    exact (timingOk_before_iff rfl).2 ⟨hslice.le, hnone, haud.bound⟩

end

end Sys2Proof.Machine
end

section
/-! SUPPORT. The invariant of the block: its part on the contents of the cells, which every operation keeps, and the whole
of it after power-on. -/

namespace Sys2Proof

/-- A word of the non-volatile window names two bytes that exist (R7). -/
theorem Cfg.byteIndex_lt {c : Cfg} (hc : c.wf = true) {k : Nat} (hk : k ≤ c.lastOffset .nvram) :
    Machine.byteIndex k + 1 < c.nvramBytes := by
  have hw := Cfg.wf_windowsWf hc
  simp only [Cfg.windowsWf, Bool.and_eq_true, decide_eq_true_eq] at hw
  obtain ⟨⟨⟨⟨⟨⟨-, hbytes⟩, -⟩, -⟩, -⟩, -⟩, -⟩ := hw
  rw [Machine.byteIndex]
  omega

end Sys2Proof

namespace Sys2Proof.Machine

/-- The part of the invariant that speaks of the configuration, the memories and the registers. -/
structure State.StoresOk (s : State) : Prop where
  cfg : s.cfg.wf = true
  vram : s.vram.wf s.cfg.vramWords = true
  palram : s.palram.wf s.cfg.palEntries = true
  palcache : s.palcache.wf s.cfg.palEntries = true
  nvram : s.nvram.wf s.cfg.nvramBytes = true
  grom : s.grom.wf s.cfg.gromBytes = true
  pixbuf : s.pixbuf.wf (s.cfg.screenH * s.cfg.screenW) = true
  hostsurf : s.hostsurf.wf (s.cfg.screenH * s.cfg.screenW) = true
  cursor : s.cursor < s.cfg.protTable.length
  sndack : s.sndack ≤ s.cfg.sndackPolls
  bank0 : s.gbankOff0 = 0 ∨ (s.cfg.gromLarge = true ∧ s.gbankOff0 = s.cfg.gromHighOffset)
  bank1 : s.gbankOff1 = 0

/-- The invariant is its two parts. -/
theorem inv_iff (s : State) : s.Inv ↔ s.StoresOk ∧ s.TimingOk := by
  constructor
  · rintro ⟨hcfg, ⟨hvr, hpr, hpc, hnv, hgr, hpx, hhs⟩, hcur, hack, ⟨hb0, hb1⟩, hslice, hgrant, hc0, hc1, haud⟩
    exact ⟨⟨hcfg, hvr, hpr, hpc, hnv, hgr, hpx, hhs, hcur, hack, hb0, hb1⟩,
      ⟨hslice, hgrant, fun p => by cases p <;> assumption, haud⟩⟩
  · rintro ⟨⟨hcfg, hvr, hpr, hpc, hnv, hgr, hpx, hhs, hcur, hack, hb0, hb1⟩, ⟨hslice, hgrant, hcyc, haud⟩⟩
    exact ⟨hcfg, ⟨hvr, hpr, hpc, hnv, hgr, hpx, hhs⟩, hcur, hack, ⟨hb0, hb1⟩, hslice, hgrant, hcyc .p0, hcyc .p1, haud⟩

section
variable {s : State}

theorem controlBankOffset_values (c : Cfg) (v : Word) :
    controlBankOffset c v = 0 ∨ (c.gromLarge = true ∧ controlBankOffset c v = c.gromHighOffset) := by
  unfold controlBankOffset
  split
  · next h =>
    rw [Bool.and_eq_true] at h
    exact .inr ⟨h.2, rfl⟩
  · exact .inl rfl

/-- An image that a save can produce and that fits leaves canonical memories and bank offsets of R23. -/
theorem storesOk_restored {img : SavedImage} (hs : s.StoresOk) (hi : img.isImage s.cfg = true)
    (hf : imageFits s.cfg img = true) : (restoredState img s).StoresOk := by
  simp only [SavedImage.isImage, Bool.and_eq_true, Bool.or_eq_true, beq_iff_eq] at hi
  obtain ⟨⟨⟨⟨⟨hnv, hpr⟩, hpc⟩, hvr⟩, hb0⟩, hb1⟩ := hi
  obtain ⟨-, fnv, fpr, fpc, fvr⟩ := (imageFits_iff ..).1 hf
  exact { hs with
    vram := (Memory.wf_iff ..).2 ⟨hvr, fvr⟩, palram := (Memory.wf_iff ..).2 ⟨hpr, fpr⟩
    palcache := (Memory.wf_iff ..).2 ⟨hpc, fpc⟩, nvram := (Memory.wf_iff ..).2 ⟨hnv, fnv⟩, bank0 := hb0, bank1 := hb1 }

/-- A state as power-on leaves it is within the invariant. -/
theorem inv_of_fresh (hc : s.cfg.wf = true) (hm : s.MemoriesOk) (hphase : s.phase = .idle) (hgrant : s.grant = none)
    (hcells : (s.cursor, s.sndack, s.gbankOff0, s.gbankOff1, s.slice, s.audDone) = (0, 0, 0, 0, 0, 0)) : s.Inv := by
  simp only [Prod.mk.injEq] at hcells
  obtain ⟨hcur, hack, hb0, hb1, hslice, haud⟩ := hcells
  have ht : s.TimingOk := (timingOk_before_iff (by rw [hphase]; rfl)).2
    ⟨hslice ▸ Nat.zero_le _, hgrant, haud ▸ Nat.zero_le _⟩
  exact ⟨hc, hm, hcur ▸ Cfg.wf_protTable hc, hack ▸ Nat.zero_le _, ⟨.inl hb0, hb1⟩, ht.slice, ht.grant, ht.cycles .p0,
    ht.cycles .p1, ht.audio⟩

/-- Power-on with images that lie in their memories meets the invariant. -/
theorem inv_powered {p : PowerOn} (hc : p.cfg.wf = true) (hg : p.grom.wf p.cfg.gromBytes = true)
    (hn : ∀ image : Memory 8, p.nvram = some image → image.wf p.cfg.nvramBytes = true) (s : State) :
    (poweredState p s).Inv := by
  have hnv : (p.nvram.getD ⟨s.draw + 1, []⟩).wf p.cfg.nvramBytes = true := by
    cases h : p.nvram with
    | none => rfl
    | some image => exact hn image h
  exact inv_of_fresh hc ⟨rfl, rfl, rfl, hnv, hg, rfl, rfl⟩ rfl rfl rfl

/-- Every well-formed operation keeps the contents of the cells within the invariant. -/
theorem exec_keeps_stores {i : Instr} {t : State} (hs : s.StoresOk) (hw : i.wellFormed s.cfg = true)
    (h : exec i s = .next t) (hp : ∀ p, i ≠ .hPoweron p) : t.StoresOk := by
  have hwords : 0 < s.cfg.vramWords := by
    have := Cfg.wf_vramWords hs.cfg
    omega
  cases i
  case vramWr k v =>
    cases h
    exact { hs with
      vram := Memory_wf_writeCell _ (Nat.mod_lt _ hwords) (Memory_wf_writeCell _ (Nat.mod_lt _ hwords) hs.vram) }
  case eDma m =>
    cases h
    have hm : ∀ w ∈ m.writes, w.1 < s.cfg.vramWords := by simpa [Instr.wellFormed] using hw
    exact { hs with vram := Memory_wf_writeCells hm hs.vram }
  case nvramWr k v =>
    have hk := Cfg.byteIndex_lt hs.cfg (of_decide_eq_true hw)
    rcases Bool.eq_false_or_eq_true s.nvwe with ha | ha
    · cases (exec_nvramWr_of_armed ha k v).symm.trans h
      exact { hs with
        nvram := Memory_wf_writeCell _ hk (Memory_wf_writeCell _ (Nat.lt_of_succ_lt hk) hs.nvram) }
    · cases (exec_nvramWr_of_clear ha k v).symm.trans h
      exact hs
  case palWr n v =>
    cases h
    have hn : n < s.cfg.palEntries := of_decide_eq_true (Bool.and_eq_true_iff.1 hw).1
    exact { hs with
      palram := Memory_wf_writeCell _ hn hs.palram, palcache := Memory_wf_writeCell _ hn hs.palcache }
  case ftPalrc =>
    by_cases hd : s.surfaceBound = true ∧ s.paldirty = true
    · cases (exec_ftPalrc_of_dirty hd.1 hd.2).symm.trans h
      exact { hs with palcache := Memory_wf_fillCells .. }
    · cases (exec_ftPalrc_of_not (by simpa [imp_iff_not_or] using hd)).symm.trans h
      exact { hs with }
  case ftBlit =>
    rcases Bool.eq_false_or_eq_true s.surfaceBound with hb | hb
    · cases (exec_ftBlit_of_bound hb).symm.trans h
      exact { hs with hostsurf := Memory_wf_fillCells .. }
    · cases (exec_ftBlit_of_unbound hb).symm.trans h
      exact { hs with }
  case scanline d =>
    cases h
    have hpix := pixbuf_wf_drawLine d s hs.pixbuf
    obtain ⟨m, e⟩ := drawLine_frame d s
    rw [e] at hpix ⊢
    exact { hs with pixbuf := hpix }
  case ftScan =>
    cases h
    have hpix := pixbuf_wf_drawLine (decodeDesc s.desc) s hs.pixbuf
    obtain ⟨m, e⟩ := drawLine_frame (decodeDesc s.desc) s
    rw [e] at hpix ⊢
    exact { hs with pixbuf := hpix }
  case hRestore img =>
    obtain ⟨hf, rfl⟩ := exec_hRestore_next h
    exact storesOk_restored hs hw hf
  case hPoweron p => exact absurd rfl (hp p)
  case ctrlWr v =>
    cases h
    exact { hs with bank0 := controlBankOffset_values s.cfg v }
  case protRd =>
    cases h
    exact { hs with cursor := Nat.mod_lt _ (Cfg.wf_protTable hs.cfg) }
  case protWr v =>
    cases h
    exact { hs with cursor := protCursor_lt _ _ (Cfg.wf_protTable hs.cfg) }
  case protRst =>
    cases h
    exact { hs with cursor := Cfg.wf_protTable hs.cfg }
  case ftRstchk =>
    rcases Bool.eq_false_or_eq_true s.resetPending with hr | hr
    · cases (exec_ftRstchk_of_pending hr).symm.trans h
      exact { hs with cursor := Cfg.wf_protTable hs.cfg, sndack := Nat.zero_le _ }
    · cases (exec_ftRstchk_of_none hr).symm.trans h
      exact { hs with }
  case sndstRd a =>
    cases (exec_sndstRd a s).symm.trans h
    exact { hs with sndack := (Nat.sub_le ..).trans hs.sndack }
  case sndlatchWr a v =>
    cases h
    exact { hs with sndack := le_rfl }
  case ftStart =>
    obtain ⟨p, e⟩ := exec_ftStart_frame s
    cases e.symm.trans h
    exact { hs with }
  case ftRun0 =>
    obtain ⟨n, g, p, events, e⟩ := exec_ftRun0_frame s
    cases e.symm.trans h
    exact { hs with }
  case ftRun1 =>
    obtain ⟨n, g, p, events, e⟩ := exec_ftRun1_frame s
    cases e.symm.trans h
    exact { hs with }
  case ftAudio =>
    cases (exec_ftAudio s).symm.trans h
    exact { hs with }
  case ftFlush =>
    cases (exec_ftFlush s).symm.trans h
    exact { hs with }
  all_goals
    cases h
    exact { hs with }

end

end Sys2Proof.Machine
end

section
/-! SUPPORT. Every step keeps the invariant of the block: each turn performs the step of the phase, or an operation that
leaves the progress of the frame alone. -/

namespace Sys2Proof.Machine

section
variable {s : State} {i : Instr}

/-- No move from outside is a step of the sequencer. -/
theorem window_of_decodeEnv {code : BitVec 4} {arg : EnvArg} (h : decodeEnv code arg = .ok i) :
    turnWindow i ≠ .sequencer := by
  cases arg <;> simp only [decodeEnv, rejectMove] at h <;> split_ifs at h <;> cases h <;> nofun

/-- The turn of a step is the sequencer's, and its step that of the phase (R86). -/
theorem decodeSeq_of_turn (hd : decode s.cfg (fetch s).1 = .ok i) (hw : turnWindow i = .sequencer) :
    decodeSeq (phaseCode s.phase) = .ok i := by
  rcases hs : s.schedule with _ | ⟨inp | b | ⟨code, arg⟩, rest⟩
  · rwa [fetch_of_nil hs] at hd
  · rwa [fetch_of_seq hs] at hd
  · rw [fetch_of_bus hs] at hd
    cases (window_of_decodeBus hd).symm.trans hw
  · rw [fetch_of_env hs] at hd
    exact absurd hw (window_of_decodeEnv hd)

/-- No operation but the steps and power-on touches the progress of the frame. -/
theorem exec_keeps_timing {t : State} (hw : turnWindow i ≠ .sequencer) (hp : ∀ p, i ≠ .hPoweron p)
    (h : exec i s = .next t) : t.timing = s.timing := by
  cases i
  case hPoweron p => exact absurd rfl (hp p)
  case nvramWr k v =>
    obtain ⟨m, e⟩ := exec_nvramWr_frame s k v
    cases e.symm.trans h
    rfl
  case sndstRd a =>
    cases (exec_sndstRd a s).symm.trans h
    rfl
  case scanline d =>
    obtain ⟨m, e⟩ := exec_scanline_frame s d
    cases e.symm.trans h
    rfl
  case hRestore img =>
    obtain ⟨-, rfl⟩ := exec_hRestore_next h
    rfl
  case ftStart | ftRstchk | ftInsnap | ftClracc | ftRun0 | ftRun1 | ftScan | ftAudio | ftNext | ftFlush | ftPalrc |
      ftBlit | ftDone => exact absurd rfl hw
  all_goals
    cases h
    rfl

theorem settle_of_ne_scan {w : Window} (h : w ≠ .scan) (u : State) : settle w u = u := by
  cases w
  case scan => exact absurd rfl h
  all_goals rfl

/-- Taking the turn leaves the progress of the frame alone. -/
theorem fetch_timing (s : State) : (fetch s).2.timing = s.timing := by
  obtain ⟨l, fg, d, r, b, e⟩ := fetch_frame s
  rw [e]
  rfl

theorem fetch_stores (hs : s.StoresOk) : (fetch s).2.StoresOk := by
  obtain ⟨l, fg, d, r, b, e⟩ := fetch_frame s
  rw [e]
  exact { hs with }

/-- What a turn adds to its operation keeps the invariant: the line of phase `SCAN` leads to the audio slice (R178). -/
theorem settle_keeps_inv {w : Window} (hphase : w = .scan → s.phase = .scan) (hs : s.Inv) : (settle w s).Inv := by
  by_cases hw : w = .scan
  · subst hw
    obtain ⟨hstores, htiming⟩ := (inv_iff s).1 hs
    exact (inv_iff _).2 ⟨{ hstores with }, timingOk_lineDone (hphase rfl) htiming⟩
  · rwa [settle_of_ne_scan hw]

end

/-- Settles O56: the powered state is fresh, and so is the reset state. -/
theorem resetMeetsInvariant : Obligations.ResetMeetsInvariant := by
  unfold Obligations.ResetMeetsInvariant
  exact ⟨fun p s hc hg hn => ⟨_, exec_hPoweron_of_wf hc s, inv_powered hc hg hn s⟩,
    inv_of_fresh Tests.test_refCfg_wf ⟨rfl, rfl, rfl, rfl, rfl, rfl, rfl⟩ rfl rfl rfl⟩

/-- Settles O55: the operation keeps both parts of the invariant, and so does what the turn adds to it. -/
theorem stepKeepsInvariant : Obligations.StepKeepsInvariant := by
  unfold Obligations.StepKeepsInvariant
  intro s t hs h
  obtain ⟨hstores, htiming⟩ := (inv_iff s).1 hs
  obtain ⟨i, u, hd, hwf, ho, he, rfl⟩ := step_next h
  have hfetch := fetch_timing s
  have hcfg : (fetch s).2.cfg = s.cfg := congrArg (·.1) hfetch
  have hphase : (fetch s).2.phase = s.phase := congrArg (·.2.1) hfetch
  by_cases hpow : ∃ p, i = .hPoweron p
  · obtain ⟨p, rfl⟩ := hpow
    obtain ⟨hc, rfl⟩ := exec_hPoweron_next he
    simp only [Instr.wellFormed, Bool.and_eq_true, Option.all_eq_true] at hwf
    exact inv_powered hc hwf.1 hwf.2 _
  push Not at hpow
  have hu := exec_keeps_stores (fetch_stores hstores) (hcfg ▸ hwf) he hpow
  by_cases hseq : turnWindow i = .sequencer
  · have hut := sequencer_keeps_timing (hcfg ▸ hstores.cfg) (htiming.congr hfetch)
      (hphase ▸ decodeSeq_of_turn hd hseq) he
    exact settle_keeps_inv (by simp [hseq]) ((inv_iff u).2 ⟨hu, hut⟩)
  · have hut := (exec_keeps_timing hseq hpow he).trans hfetch
    refine settle_keeps_inv (fun hscan => ?_) ((inv_iff u).2 ⟨hu, htiming.congr hut⟩)
    exact (congrArg (·.2.1) hut).trans (windowOpen_scan.1 (hscan ▸ ho))

end Sys2Proof.Machine
end

section
/-! SUPPORT. The length of a frame (R189): each turn of the sequencer waits or goes on to the next place of the
order. -/

namespace Sys2Proof.Machine

section
variable {s t : State} {i : Instr}

/-- Where a frame stands: phase, slice and the count of frames. -/
def State.place (s : State) : Phase × Nat × BitVec 32 := (s.phase, s.slice, s.framecnt)

/-- The place after this one in the order of R171. -/
def State.nextPlace (s : State) : Phase × Nat × BitVec 32 :=
  match s.phase with
  | .idle => (.rstchk, s.slice, s.framecnt)
  | .rstchk => (.insnap, s.slice, s.framecnt)
  | .insnap => (.clracc, s.slice, s.framecnt)
  | .clracc => (.run0, 0, s.framecnt)
  | .run0 => (.run1, s.slice, s.framecnt)
  | .run1 => (.scan, s.slice, s.framecnt)
  | .scan => (.audio, s.slice, s.framecnt)
  | .audio => (.next, s.slice, s.framecnt)
  | .next => (if s.slice + 1 < s.cfg.sliceCount then .run0 else .flush, s.slice + 1, s.framecnt)
  | .flush => (.palrc, s.slice, s.framecnt)
  | .palrc => (.blit, s.slice, s.framecnt)
  | .blit => (.done, s.slice, s.framecnt)
  | .done => (.idle, s.slice, s.framecnt + 1)

theorem stepsDone_congr (hphase : t.phase = s.phase) (hslice : t.slice = s.slice) : t.stepsDone = s.stepsDone := by
  simp only [State.stepsDone, hphase, hslice]

/-- Each place but the last of the frame has one step more behind it than the one before (R189). -/
theorem stepsDone_nextPlace (h : t.place = s.nextPlace) (hdone : s.phase ≠ .done) : t.stepsDone = s.stepsDone + 1 := by
  unfold State.nextPlace at h
  cases hphase : s.phase <;> simp only [State.place, hphase, Prod.mk.injEq] at h <;> obtain ⟨hp, hs, -⟩ := h
  case next =>
    by_cases hmore : s.slice + 1 < s.cfg.sliceCount
    · rw [if_pos hmore] at hp
      simp only [State.stepsDone, hp, hs, hphase]
      omega
    · rw [if_neg hmore] at hp
      simp only [State.stepsDone, hp, hs, hphase]
      omega
  case done => exact absurd hphase hdone
  all_goals simp only [State.stepsDone, hp, hs, hphase]

/-- The count of frames changes with the last step only (R185). -/
theorem nextPlace_framecnt (hdone : s.phase ≠ .done) : s.nextPlace.2.2 = s.framecnt := by
  unfold State.nextPlace
  cases hphase : s.phase
  case done => exact absurd hphase hdone
  all_goals rfl

/-- The slices begin after FT.CLRACC. -/
theorem nextPlace_before (hb : s.phase.beforeSlices = true) (hne : s.phase ≠ .clracc) :
    s.nextPlace.1.beforeSlices = true := by
  unfold State.nextPlace
  cases hphase : s.phase <;> rw [hphase] at hb
  case clracc => exact absurd hphase hne
  case idle | rstchk | insnap => rfl
  all_goals cases hb

/-- The cells that no step of the sequencer writes and that decide, with the grant, whether it goes on. -/
def State.ports (s : State) : Cfg × List Turn × Bool × Bool := (s.cfg, s.schedule, s.frameGo, s.returned)

/-- A run step waits for the return of its grant, or goes on with no grant open. -/
theorem runStep_advances (p : Proc) (after : Phase) (s : State) : (runStep p after s).ports = s.ports ∧
    (((runStep p after s).place = s.place ∧ s.returned = false) ∨
      ((runStep p after s).place = (after, s.slice, s.framecnt) ∧ (runStep p after s).grant = none)) := by
  rcases runStep_cases p after s with ⟨hg, -, e⟩ | ⟨g, events, -, ⟨-, ran, -, -, e⟩ | ⟨hr, ran, -, e⟩⟩
  · rw [e]
    exact ⟨rfl, .inr ⟨rfl, hg⟩⟩
  · rw [e]
    cases p <;> exact ⟨rfl, .inr ⟨rfl, rfl⟩⟩
  · rw [e]
    exact ⟨rfl, .inl ⟨rfl, hr⟩⟩

/-- The step of the phase waits, for `FRAME_GO` or a return, or goes on to the next place. -/
theorem sequencer_advances (hd : decodeSeq (phaseCode s.phase) = .ok i) (h : exec i s = .next t) :
    t.ports = s.ports ∧
    ((t.place = s.place ∧ (s.returned = false ∨ s.frameGo = false)) ∨
      (t.place = s.nextPlace ∧ (s.grant = none → t.grant = none))) := by
  unfold State.nextPlace
  cases hphase : s.phase <;> rw [hphase] at hd <;> cases hd
  case idle =>
    rcases Bool.eq_false_or_eq_true s.frameGo with hg | hg
    · cases (exec_ftStart_of_go hg).symm.trans h
      exact ⟨rfl, .inr ⟨rfl, id⟩⟩
    · cases (exec_ftStart_of_wait hg).symm.trans h
      exact ⟨rfl, .inl ⟨rfl, .inr hg⟩⟩
  case rstchk =>
    obtain ⟨cursor, ack, pending, draw, latch, events, e⟩ := exec_ftRstchk_frame s
    cases e.symm.trans h
    exact ⟨rfl, .inr ⟨rfl, id⟩⟩
  case run0 =>
    cases h
    exact (runStep_advances .p0 .run1 s).imp id (.imp (.imp id .inl) (.imp id fun hg _ => hg))
  case run1 =>
    cases h
    exact (runStep_advances .p1 .scan s).imp id (.imp (.imp id .inl) (.imp id fun hg _ => hg))
  case scan =>
    obtain ⟨m, e⟩ := exec_ftScan_frame s
    cases e.symm.trans h
    exact ⟨rfl, .inr ⟨rfl, id⟩⟩
  case audio =>
    cases (exec_ftAudio s).symm.trans h
    exact ⟨rfl, .inr ⟨rfl, id⟩⟩
  case flush =>
    cases (exec_ftFlush s).symm.trans h
    exact ⟨rfl, .inr ⟨rfl, id⟩⟩
  case palrc =>
    obtain ⟨m, dirty, e⟩ := exec_ftPalrc_frame s
    cases e.symm.trans h
    exact ⟨rfl, .inr ⟨rfl, id⟩⟩
  case blit =>
    obtain ⟨m, e⟩ := exec_ftBlit_frame s
    cases e.symm.trans h
    exact ⟨rfl, .inr ⟨rfl, id⟩⟩
  all_goals
    cases h
    exact ⟨rfl, .inr ⟨rfl, id⟩⟩

/-! ### A frame that nothing interrupts -/

/-- Nothing is scheduled, the host asks for frames, every grant returns at once, none is open, and from the slices on
the frame is within its bounds. -/
structure State.Unattended (s : State) : Prop where
  cfg : s.cfg.wf = true
  schedule : s.schedule = []
  frameGo : s.frameGo = true
  returned : s.returned = true
  grant : s.grant = none
  timing : s.phase.beforeSlices = false → s.TimingOk

/-- An unattended frame goes on to the next place in each turn. -/
theorem step_unattended (hs : s.Unattended) :
    ∃ t, step s = .next t ∧ t.Unattended ∧ t.cfg = s.cfg ∧ t.place = s.nextPlace := by
  obtain ⟨i, hd, hw⟩ := decodeSeq_phaseCode s.phase
  obtain ⟨t, he⟩ := exec_step_completes hw s
  obtain ⟨hports, hadvance⟩ := sequencer_advances hd he
  obtain ⟨hcfg, hschedule, hgo, hreturned⟩ := by simpa only [State.ports, Prod.mk.injEq] using hports
  rcases hadvance with ⟨-, hr | hg⟩ | ⟨hplace, hgrant⟩
  · cases hs.returned.symm.trans hr
  · cases hs.frameGo.symm.trans hg
  refine ⟨t, step_of_sequencer hs.schedule hd he, ⟨hcfg ▸ hs.cfg, hschedule.trans hs.schedule, hgo.trans hs.frameGo,
    hreturned.trans hs.returned, hgrant hs.grant, fun hin => ?_⟩, hcfg, hplace⟩
  by_cases hcl : s.phase = .clracc
  · rw [hcl] at hd
    cases hd
    cases he
    exact timingOk_cleared hs.cfg hs.grant
  · rcases Bool.eq_false_or_eq_true s.phase.beforeSlices with hb | hb
    · have hphase : t.phase = s.nextPlace.1 := congrArg (·.1) hplace
      rw [hphase, nextPlace_before hb hcl] at hin
      cases hin
    · exact sequencer_keeps_timing hs.cfg (hs.timing hb) hd he

/-- The last step of the frame is the one with the number of R189. -/
theorem stepsDone_of_done (hslice : s.SliceOk) (h : s.phase = .done) : s.stepsDone = 4 + 5 * s.cfg.sliceCount + 3 := by
  simp only [State.stepsDone, h, hslice.after (by rw [h]; rfl)]

/-- No other place has as many steps behind it. -/
theorem done_of_stepsDone (hs : s.Unattended) (h : s.stepsDone = 4 + 5 * s.cfg.sliceCount + 3) : s.phase = .done := by
  have hin : s.phase.inSlice = true → s.slice < s.cfg.sliceCount := fun e =>
    (hs.timing (by revert e; cases s.phase <;> decide)).slice.inside e
  have haft : s.phase.afterSlices = true → s.slice = s.cfg.sliceCount := fun e =>
    (hs.timing (by revert e; cases s.phase <;> decide)).slice.after e
  revert h hin haft
  unfold State.stepsDone
  cases s.phase <;> simp [Phase.inSlice, Phase.afterSlices] <;> omega

/-- An unattended frame completes one step in each turn, up to its last one. -/
theorem run_unattended (hs : s.Unattended) (hidle : s.phase = .idle) {m : Nat} (hm : m ≤ 4 + 5 * s.cfg.sliceCount + 3) :
    ∃ t, Sys2Proof.core.run m s = .next t ∧ t.Unattended ∧ t.cfg = s.cfg ∧ t.framecnt = s.framecnt ∧
      t.stepsDone = m := by
  induction m with
  | zero => exact ⟨s, rfl, hs, rfl, rfl, by simp only [State.stepsDone, hidle]⟩
  | succ m ih =>
    obtain ⟨u, hu, hun, hcfg, hcnt, hsteps⟩ := ih (Nat.le_of_succ_le hm)
    have hdone : u.phase ≠ .done := fun e => by
      have := stepsDone_of_done (hun.timing (by rw [e]; rfl)).slice e
      rw [hcfg] at this
      omega
    obtain ⟨t, ht, htn, htcfg, hplace⟩ := step_unattended hun
    have htcnt : t.framecnt = u.nextPlace.2.2 := congrArg (·.2.2) hplace
    exact ⟨t, run_add hu (run_one ht), htn, htcfg.trans hcfg, (htcnt.trans (nextPlace_framecnt hdone)).trans hcnt,
      (stepsDone_nextPlace hplace hdone).trans (congrArg (· + 1) hsteps)⟩

/-- From `IDLE` an unattended frame comes back to `IDLE` in the number of turns of R189. -/
theorem run_frame (hs : s.Unattended) (hidle : s.phase = .idle) :
    ∃ t, Sys2Proof.core.run (4 + 5 * s.cfg.sliceCount + 4) s = .next t ∧ t.phase = .idle ∧
      t.framecnt = s.framecnt + 1 ∧ t.slice = s.cfg.sliceCount ∧ t.audDone = s.cfg.frameSamples := by
  obtain ⟨u, hu, hun, hcfg, hcnt, hsteps⟩ := run_unattended hs hidle le_rfl
  have hdone := done_of_stepsDone hun (hcfg ▸ hsteps)
  have ht := hun.timing (by rw [hdone]; rfl)
  have hlast := step_of_sequencer (i := .ftDone) hun.schedule (by rw [hdone]; rfl) rfl
  refine ⟨_, run_add (m := 4 + 5 * s.cfg.sliceCount + 3) (n := 1) hu (run_one hlast), rfl,
    congrArg (· + 1) hcnt, ?_, ?_⟩
  · exact hcfg ▸ ht.slice.after (by rw [hdone]; rfl)
  · exact hcfg ▸ ht.audio.flushed (.inr (.inr hdone))

/-! ### A frame that hangs -/

/-- In a run step of `p` with nothing scheduled and a grant, open or about to be made, that does not return. -/
structure State.Hanging (p : Proc) (s : State) : Prop where
  schedule : s.schedule = []
  returned : s.returned = false
  phase : s.phase = runPhase p
  grant : (∃ g, s.grant = some g) ∨ s.cycDone p < s.cfg.target p s.slice

/-- A turn of a run step without a return leaves the step where it is, with a grant open. -/
theorem step_hanging {p : Proc} (hs : s.Hanging p) : ∃ t, step s = .next t ∧ t.Hanging p := by
  obtain ⟨i, after, hd, he⟩ : ∃ i after, decodeSeq (phaseCode (runPhase p)) = .ok i ∧
      exec i s = .next (runStep p after s) := by
    cases p
    · exact ⟨.ftRun0, .run1, rfl, rfl⟩
    · exact ⟨.ftRun1, .scan, rfl, rfl⟩
  refine ⟨_, step_of_sequencer hs.schedule (hs.phase ▸ hd) he, ?_⟩
  rcases runStep_cases p after s with ⟨hg, ht, -⟩ | ⟨g, events, -, ⟨hr, -⟩ | ⟨-, ran, -, e⟩⟩
  · rcases hs.grant with ⟨g, h⟩ | h
    · cases hg.symm.trans h
    · exact absurd ht h.not_ge
  · cases hs.returned.symm.trans hr
  · rw [e]
    exact ⟨hs.schedule, hs.returned, hs.phase, .inl ⟨_, rfl⟩⟩

theorem run_hanging {p : Proc} (hs : s.Hanging p) (n : Nat) :
    ∃ t, Sys2Proof.core.run n s = .next t ∧ t.Hanging p := by
  induction n with
  | zero => exact ⟨s, rfl, hs⟩
  | succ n ih =>
    obtain ⟨u, hu, hup⟩ := ih
    obtain ⟨t, ht, htp⟩ := step_hanging hup
    exact ⟨t, run_add hu (run_one ht), htp⟩

/-! ### Every frame -/

/-- What a turn makes of the count of steps: it leaves it, or adds one, or ends the frame. -/
theorem step_counts (hs : s.Inv) (h : step s = .next t) (hpow : ∀ p, decode s.cfg (fetch s).1 ≠ .ok (.hPoweron p)) :
    t.stepsDone = s.stepsDone ∨ (s.phase ≠ .done ∧ t.stepsDone = s.stepsDone + 1) ∨
      (s.phase = .done ∧ t.phase = .idle ∧ s.stepsDone + 1 = 4 + 5 * s.cfg.sliceCount + 4) := by
  obtain ⟨i, u, hd, -, ho, he, rfl⟩ := step_next h
  have hp : ∀ p, i ≠ .hPoweron p := fun p e => hpow p (e ▸ hd)
  by_cases hseq : turnWindow i = .sequencer
  · have hi := decodeSeq_of_turn hd hseq
    rw [hseq]
    obtain ⟨l, fg, d, r, b, e⟩ := fetch_frame s
    rw [e] at he
    obtain ⟨-, hadvance⟩ :=
      sequencer_advances (s := { s with schedule := l, frameGo := fg, desc := d, ran := r, returned := b }) hi he
    rcases hadvance with ⟨hplace, -⟩ | ⟨hplace, -⟩
    · exact .inl (stepsDone_congr (congrArg (·.1) hplace) (congrArg (·.2.1) hplace))
    · by_cases hdone : s.phase = .done
      · rw [hdone] at hi
        cases hi
        cases he
        exact .inr (.inr ⟨hdone, rfl, congrArg (· + 1) (stepsDone_of_done hs.slice hdone)⟩)
      · exact .inr (.inl ⟨hdone, stepsDone_nextPlace (s := s) hplace hdone⟩)
  · have hu := (exec_keeps_timing hseq hp he).trans (fetch_timing s)
    have hphase : u.phase = s.phase := congrArg (·.2.1) hu
    have hslice : u.slice = s.slice := congrArg (·.2.2.1) hu
    by_cases hscan : turnWindow i = .scan
    · have hs' : s.phase = .scan := windowOpen_scan.1 (hscan ▸ ho)
      refine .inr (.inl ⟨by simp [hs'], ?_⟩)
      simp [hscan, settle, State.goto, State.stepsDone, hs', hslice]
    · rw [settle_of_ne_scan hscan]
      exact .inl (stepsDone_congr hphase hslice)

end

/-- Settles O59: a frame that nothing interrupts, every turn, and a grant that never returns. -/
theorem frameTerminates : Obligations.FrameTerminates := by
  unfold Obligations.FrameTerminates
  refine ⟨fun s hc hidle hgo hsched hg hr => run_frame ⟨hc, hsched, hgo, hr, hg, ?_⟩ hidle,
    fun s t hs h hpow => step_counts hs h hpow, fun p s hsched hr hphase hg n => ?_⟩
  · rw [hidle]
    exact nofun
  · obtain ⟨t, ht, hhang⟩ := run_hanging ⟨hsched, hr, hphase, hg⟩ n
    exact ⟨t, ht, hhang.phase⟩

end Sys2Proof.Machine
end
